-- ==== Sys2Proof/Word.lean ====
section
/-! DEFINITION. The words of the MPU's interface and the plain data an operation carries: addresses and register
words (spec 00_scope R6, R7), access sizes and kinds (30_encoding R80, 41_access_check R160), and the packet in which
the processor presents one operation (R80; layout in Sys2Proof/Decode.lean). -/

namespace Sys2Proof

/-- A 32-bit word: a register value or a byte address (R6, R7, R50). -/
abbrev Word := BitVec 32

/-- The width of a register access, "1, 2 or 4 bytes" (R80). -/
inductive Size where
  | byte
  | half
  | word
deriving DecidableEq, Repr

/-- The kind of an access submitted for judgement (R160). -/
inductive Kind where
  /-- a data read -/
  | read
  /-- a data write -/
  | write
  /-- an instruction fetch -/
  | fetch
  /-- the processor's own read of an exception vector -/
  | vector
deriving DecidableEq, Repr

/-- One operation as the processor presents it: three words of one length for every format (R80, R96). What each bit
of `ctrl` and `data` means is the model's own choice (DESIGN CHOICE, log 4), since the spec gives bits to the address
only (R81, D23). -/
structure Packet where
  addr : Word
  ctrl : Word
  data : Word
deriving DecidableEq, Repr

end Sys2Proof
end

