-- ==== Sys2Proof/Config.lean ====
section
/-! DEFINITION. What an implementation fixes and what the spec leaves free. The parameters of spec 00_scope R6 that
are plain data (`Impl`), the open parameters the spec gives no value (`DefaultMap`, `IMPDEF_ATTR`) as constants without
a body, the free values a `draw` or a free choice takes (R8, 20_memory R64) as functions without a
body, and the types of these. -/

namespace Sys2Proof

/-- NREGIONS (R6): 8 or 16, or 0 when no MPU is present. -/
inductive Regions where
  | absent
  | eight
  | sixteen
deriving DecidableEq, Repr

/-- The number of regions, the field DREGION of MPU_TYPE (R21). -/
def Regions.count : Regions → Nat
  | .absent => 0
  | .eight => 8
  | .sixteen => 16

/-- BASE_POLICY (R6, D9): what a base that is not a multiple of the region size does in an enabled region. -/
inductive BasePolicy where
  | refuse
  | mask
deriving DecidableEq, Repr

/-- RESERVED_WRITE_POLICY (R6, D4): what a write of ones to reserved register bits does. -/
inductive ReservedPolicy where
  | refuse
  | ignore
deriving DecidableEq, Repr

/-- The addresses from `first` to `last`. -/
structure AddrRange where
  first : Word
  last : Word
deriving DecidableEq, Repr

/-- The parameters of R6 that are plain data. They are data of the state that no operation changes (log 2), so
that a statement about every state is one about every implementation. `scs` says which addresses besides the MPU's
register block lie in the System Control Space (`inSCS`, D13). -/
structure Impl where
  nregions : Regions
  basePolicy : BasePolicy
  reservedPolicy : ReservedPolicy
  scs : List AddrRange
deriving DecidableEq, Repr

/-- The cache policies of R57 and R90. -/
inductive CachePolicy where
  | nonCacheable
  | writeThroughNoWA
  | writeBackNoWA
  | writeBackWRA
deriving DecidableEq, Repr

/-- The memory attributes of a permitted access (R57). Strongly-ordered memory is always shareable (R58, C9), and the
cache policies exist for Normal memory only, "meaningful for Normal only" (log 9). -/
inductive MemAttr where
  | stronglyOrdered
  | device (shareable : Bool)
  | normal (shareable : Bool) (inner outer : CachePolicy)
deriving DecidableEq, Repr, Inhabited

/-- What the default memory map says of one address (R51). -/
structure DefaultEntry where
  attr : MemAttr
  xn : Bool
deriving DecidableEq, Repr, Inhabited

/-- Every MPU_RASR field of a region except ENABLE (R20, R26). -/
structure Attr where
  xn : Bool
  ap : BitVec 3
  tex : BitVec 3
  s : Bool
  c : Bool
  b : Bool
  srd : BitVec 8
  size : BitVec 5
deriving DecidableEq, Repr, Inhabited

/-- All parameters of the access check (R6, R160): the plain ones and the open ones. -/
structure Params where
  nregions : Regions
  basePolicy : BasePolicy
  defaultMap : Word → DefaultEntry
  inSCS : Word → Bool
  impdefAttr : MemAttr

/-- `DefaultMap` (R6, R51, D14): open, no rule looks inside it. -/
opaque Config.defaultMap : Word → DefaultEntry

/-- `IMPDEF_ATTR` (R6, D20): the attributes of TEX = 0b001, C = 1, B = 0. -/
opaque Config.impdefAttr : MemAttr

/-- The draw of 8 bits that a read of an Unknown MPU_RNR returns (R125). -/
opaque Config.freeRnr : Nat → BitVec 8

/-- The draw behind "a drawn region number in 0 .. NREGIONS-1" (R127, R129). -/
opaque Config.freeRegion : Nat → Nat

/-- The draws for the bits of an Unknown base (R127). -/
opaque Config.freeBase : Nat → BitVec 27

/-- The draws for stored ones of MPU_RBAR in positions that are or may be reserved (R127). -/
opaque Config.freeReserved : Nat → BitVec 27

/-- "a drawn Attr (every field free)" (R129). -/
opaque Config.freeAttr : Nat → Attr

/-- The free choice, "by the schedule, not by the program", of the configuration that judges an access (R64). -/
opaque Config.freeChoice : Nat → Nat

end Sys2Proof
end

