-- ==== Sys2Proof/Machine/State.lean ====
section
/-! DEFINITION. The MPU's state as plain data: the architectural configuration `cfg` (spec 10_state R20), the
visibility window and its bookkeeping (R30, 20_memory R64, R65), and, the model's own, the implementation's
parameters, the reply to the last operation, the draw counter and the operations the processor has issued; what can
stop a step; the state after reset (10_state R31, R32, R34). -/

namespace Sys2Proof.Machine

/-- MPU_CTRL (R20, R22). -/
structure Ctrl where
  privdefena : Bool
  hfnmena : Bool
  enable : Bool
deriving DecidableEq, Repr

/-- One entry of the region bank (R20): `base` is bits [31:5] of the region's MPU_RBAR as last written, `attr` every
MPU_RASR field but ENABLE; `none` is the spec's own "Unknown" (R20, R31, R33). -/
structure Region where
  base : Option (BitVec 27)
  attr : Option Attr
  enable : Bool
deriving DecidableEq, Repr

/-- `cfg`, the architectural state (R20). `region` has NREGIONS entries, region 0 first. -/
structure Cfg where
  ctrl : Ctrl
  rnr : Option (BitVec 8)
  region : List Region
deriving DecidableEq, Repr

/-- Why the spec calls an operation unpredictable (R5, R8): the reasons its rules name. -/
inductive Reason where
  | regAccessSize
  | reservedBits
  | hfnmenaWithoutEnable
  | regionNumber
  | unknownState
  | writeToReadOnly
  | mpuAbsent
  | illFormedRegion
  | straddle
  | outstandingTransfer
deriving DecidableEq, Repr

/-- What a check answers (R160, R180). -/
inductive Verdict where
  | permit (m : MemAttr)
  | memManage (a : Word) (k : Kind)
  | unpredictable (r : Reason)
deriving DecidableEq, Repr

/-- An entry of `acc_log` (R64): a data access judged since the last DSB, with its verdict. `more` is the number of
bytes beyond the first (R180, log 10). -/
structure Access where
  addr : Word
  more : Word
  kind : Kind
  priv : Bool
  negprio : Bool
  verdict : Verdict
deriving DecidableEq, Repr

/-- The outcome of the last operation, as the processor sees it (R5): `Ok`, `Ok` with a register value, `Permit` with
attributes, or one of the two faults. A fault is a reply and not a stop (log 3): the operation has not taken place,
and the processor may issue further operations (V13, P4, P5). -/
inductive Reply where
  | ok
  | value (w : Word)
  | permit (m : MemAttr)
  | memManage (a : Word) (k : Kind)
  | regPriv
deriving DecidableEq, Repr

/-- The operations one processor instruction issues, in order: one for most, one per word for a store-multiple
(R143). -/
structure Burst where
  head : Packet
  rest : List Packet
deriving DecidableEq, Repr

/-- Why a packet holds no operation (log 4). -/
inductive Reject where
  /-- a bit the format has no field for is one -/
  | unusedBits
  /-- the size code is none of those for 1, 2 and 4 bytes -/
  | badSize
  /-- a register access outside 0xE000ED90 .. 0xE000EDBB: "not MPU registers and not described by the source" (R81) -/
  | notAnMpuRegister
deriving DecidableEq, Repr

/-- The state of the machine. -/
structure State where
  /-- the implementation's parameters (R6); no operation changes them -/
  impl : Impl
  /-- the architectural configuration (R20) -/
  cfg : Cfg
  /-- every configuration a data access may still be judged by (R30, R64), no repeats -/
  winData : List Cfg
  /-- every configuration an instruction fetch may still be judged by (R30, R64), no repeats -/
  winFetch : List Cfg
  /-- the data accesses judged since the last DSB, oldest first (R64) -/
  accLog : List Access
  /-- no register write has changed `cfg` since the last DSB (R65) -/
  dsbDone : Bool
  /-- exceptions entered and not yet returned from (R65) -/
  depth : Nat
  /-- every change of `cfg` since `winFetch` was last a single configuration was made at `depth >= 1` (R65) -/
  inHandlerOnly : Bool
  /-- the outcome of the last operation (R5; log 3) -/
  reply : Reply
  /-- the model's own: which draw of the free values comes next (log 6) -/
  draws : Nat
  /-- the model's own: what the processor has issued and the MPU has not yet carried out (log 1) -/
  pending : List Burst
deriving DecidableEq, Repr

/-- What stops the machine although the spec does not call it unpredictable. -/
inductive Fault where
  /-- Raised by reads and VALID = 0 writes of MPU_RBAR, by reads and writes of MPU_RASR and by their other addresses
  when MPU_RNR holds the number of no region: a state no run reaches (R23, R126, R128 refuse the write that would make
  it; log 8). Safe: the model stops. -/
  | noSuchRegion (n : BitVec 8)
deriving DecidableEq, Repr

/-- Why an operation has no meaning. -/
inductive Refusal where
  /-- Raised by no arm of exec (every operation has its meaning); the word the host reads. Safe: the model stops. -/
  | notModelled (mnemonic : String)
  /-- Raised by every operation a rule of the spec calls unpredictable: "the model refuses" (R5, R8). Safe: the model
  stops where the hardware does something the source does not say. -/
  | unpredictable (r : Reason)
  /-- Raised by `step` for a packet that encodes no operation (log 4). Safe: the model stops. -/
  | badPacket (r : Reject)
deriving DecidableEq, Repr

/-- A region after reset: base and attributes Unknown, ENABLE 0 (R31, R32). -/
def Region.reset : Region :=
  { base := none, attr := none, enable := false }

/-- `cfg` after reset for an MPU of `n` regions (R31, R32). -/
def Cfg.reset (n : Nat) : Cfg :=
  { ctrl := { privdefena := false, hfnmena := false, enable := false }
    rnr := none
    region := List.replicate n Region.reset }

/-- The parameters of the machine at reset: 8 regions (D2), both policies `refuse` (D4, D9), and for the System Control
Space the value K2 suggests (PRESUMED, log 2). -/
def Impl.default : Impl :=
  { nregions := .eight
    basePolicy := .refuse
    reservedPolicy := .refuse
    scs := [{ first := 0xE000E000#32, last := 0xE000EFFF#32 }] }

/-- The machine right after reset (R31, R32, R34), with the default parameters of R6, `Ok` as the outcome of the reset
itself (DESIGN CHOICE, log 3), the draw counter at 0 (DESIGN CHOICE, log 6) and nothing issued (DESIGN CHOICE,
log 1). -/
def State.reset : State :=
  { impl := Impl.default
    cfg := Cfg.reset Impl.default.nregions.count
    winData := [Cfg.reset Impl.default.nregions.count]
    winFetch := [Cfg.reset Impl.default.nregions.count]
    accLog := []
    dsbDone := true
    depth := 0
    inHandlerOnly := true
    reply := .ok
    draws := 0
    pending := [] }

end Sys2Proof.Machine
end

