-- ==== Sys2Proof/Syntax.lean ====
section
/-! DEFINITION. The operations of the MPU, which take the place of instructions (spec 00_scope R2, 30_encoding R80,
D1): one constructor for each row of spec/opcode_table.json. -/

namespace Sys2Proof

/-- The MPU's operations. Register operations carry `addr` (the register's address, or an unaligned or interior byte
address of its word, R120), `size`, `priv`, and for a write `data`. Checks carry the address `a` of the first byte,
for `read`, `write` and `fetch` the number `more` of further bytes (0 for the one-byte operation of R174 to R176; an
access of n bytes, R180, has `more` = n - 1, log 10), `priv` and `negprio` (R9, R160). -/
inductive Instr where
  | mpuTypeRead (addr : Word) (size : Size) (priv : Bool)
  | mpuTypeWrite (addr : Word) (size : Size) (priv : Bool) (data : Word)
  | mpuCtrlRead (addr : Word) (size : Size) (priv : Bool)
  | mpuCtrlWrite (addr : Word) (size : Size) (priv : Bool) (data : Word)
  | mpuRnrRead (addr : Word) (size : Size) (priv : Bool)
  | mpuRnrWrite (addr : Word) (size : Size) (priv : Bool) (data : Word)
  | mpuRbarRead (addr : Word) (size : Size) (priv : Bool)
  | mpuRbarWrite (addr : Word) (size : Size) (priv : Bool) (data : Word)
  | mpuRasrRead (addr : Word) (size : Size) (priv : Bool)
  | mpuRasrWrite (addr : Word) (size : Size) (priv : Bool) (data : Word)
  | mpuRbarA1Read (addr : Word) (size : Size) (priv : Bool)
  | mpuRbarA1Write (addr : Word) (size : Size) (priv : Bool) (data : Word)
  | mpuRasrA1Read (addr : Word) (size : Size) (priv : Bool)
  | mpuRasrA1Write (addr : Word) (size : Size) (priv : Bool) (data : Word)
  | mpuRbarA2Read (addr : Word) (size : Size) (priv : Bool)
  | mpuRbarA2Write (addr : Word) (size : Size) (priv : Bool) (data : Word)
  | mpuRasrA2Read (addr : Word) (size : Size) (priv : Bool)
  | mpuRasrA2Write (addr : Word) (size : Size) (priv : Bool) (data : Word)
  | mpuRbarA3Read (addr : Word) (size : Size) (priv : Bool)
  | mpuRbarA3Write (addr : Word) (size : Size) (priv : Bool) (data : Word)
  | mpuRasrA3Read (addr : Word) (size : Size) (priv : Bool)
  | mpuRasrA3Write (addr : Word) (size : Size) (priv : Bool) (data : Word)
  | checkRead (a : Word) (more : Word) (priv negprio : Bool)
  | checkWrite (a : Word) (more : Word) (priv negprio : Bool)
  | checkFetch (a : Word) (more : Word) (priv negprio : Bool)
  | checkVector (a : Word) (priv negprio : Bool)
  | evtDsb
  | evtIsb
  | evtExcEntry
  | evtExcReturn
  | reset
deriving DecidableEq, Repr

end Sys2Proof
end

