-- ==== Sys2Proof/WellFormed.lean ====
section
/-! DEFINITION. The eleven registers with their addresses (spec 30_encoding R81, Table 84) and the one check an
operation needs: a register operation's address lies in the word of the register it names (R120). Every other operand
is legal at every value of its type. -/

namespace Sys2Proof

/-- The registers of the MPU (R81). -/
inductive Reg where
  | type
  | ctrl
  | rnr
  | rbar
  | rasr
  | rbarA1
  | rasrA1
  | rbarA2
  | rasrA2
  | rbarA3
  | rasrA3
deriving DecidableEq, Repr

/-- The address of a register (R81). -/
def Reg.addr : Reg → Word
  | .type => 0xE000ED90#32
  | .ctrl => 0xE000ED94#32
  | .rnr => 0xE000ED98#32
  | .rbar => 0xE000ED9C#32
  | .rasr => 0xE000EDA0#32
  | .rbarA1 => 0xE000EDA4#32
  | .rasrA1 => 0xE000EDA8#32
  | .rbarA2 => 0xE000EDAC#32
  | .rasrA2 => 0xE000EDB0#32
  | .rbarA3 => 0xE000EDB4#32
  | .rasrA3 => 0xE000EDB8#32

/-- The address of the aligned word a byte lies in. -/
def wordAddr (a : Word) : Word := a &&& 0xFFFFFFFC#32

/-- Byte address `a` belongs to register `r`: the register's own address, or an unaligned or interior one (R120). -/
def Reg.holds (r : Reg) (a : Word) : Bool := wordAddr a == r.addr

/-- The operation names an address of its register (R120). -/
def Instr.wellFormed : Instr → Bool
  | .mpuTypeRead addr _ _ => Reg.type.holds addr
  | .mpuTypeWrite addr _ _ _ => Reg.type.holds addr
  | .mpuCtrlRead addr _ _ => Reg.ctrl.holds addr
  | .mpuCtrlWrite addr _ _ _ => Reg.ctrl.holds addr
  | .mpuRnrRead addr _ _ => Reg.rnr.holds addr
  | .mpuRnrWrite addr _ _ _ => Reg.rnr.holds addr
  | .mpuRbarRead addr _ _ => Reg.rbar.holds addr
  | .mpuRbarWrite addr _ _ _ => Reg.rbar.holds addr
  | .mpuRasrRead addr _ _ => Reg.rasr.holds addr
  | .mpuRasrWrite addr _ _ _ => Reg.rasr.holds addr
  | .mpuRbarA1Read addr _ _ => Reg.rbarA1.holds addr
  | .mpuRbarA1Write addr _ _ _ => Reg.rbarA1.holds addr
  | .mpuRasrA1Read addr _ _ => Reg.rasrA1.holds addr
  | .mpuRasrA1Write addr _ _ _ => Reg.rasrA1.holds addr
  | .mpuRbarA2Read addr _ _ => Reg.rbarA2.holds addr
  | .mpuRbarA2Write addr _ _ _ => Reg.rbarA2.holds addr
  | .mpuRasrA2Read addr _ _ => Reg.rasrA2.holds addr
  | .mpuRasrA2Write addr _ _ _ => Reg.rasrA2.holds addr
  | .mpuRbarA3Read addr _ _ => Reg.rbarA3.holds addr
  | .mpuRbarA3Write addr _ _ _ => Reg.rbarA3.holds addr
  | .mpuRasrA3Read addr _ _ => Reg.rasrA3.holds addr
  | .mpuRasrA3Write addr _ _ _ => Reg.rasrA3.holds addr
  | .checkRead _ _ _ _ => true
  | .checkWrite _ _ _ _ => true
  | .checkFetch _ _ _ _ => true
  | .checkVector _ _ _ => true
  | .evtDsb => true
  | .evtIsb => true
  | .evtExcEntry => true
  | .evtExcReturn => true
  | .reset => true

end Sys2Proof
end

