-- ==== Sys2Proof/Decode.lean ====
section
/-! DEFINITION. Decoding a packet and encoding an operation. A register operation is decoded by its address (spec
30_encoding R81); the places of the format, the read/write bit, the size, the privilege, the kind, the event and the
byte count are the model's own layout of the tuples of R80 (DESIGN CHOICE, log 4):

    addr [31:0]   the address (REG, CHK); 0 for EVT and RST
    ctrl [1:0]    format: 0 REG, 1 CHK, 2 EVT, 3 RST
    ctrl [2]      REG, CHK: 1 for an unprivileged access
    ctrl [3]      REG: 0 read, 1 write; CHK: negprio
    ctrl [5:4]    REG: 0 for 4 bytes, 1 for 1 byte, 2 for 2 bytes; CHK: 0 read, 1 write, 2 fetch, 3 vector;
                  EVT: 0 DSB, 1 ISB, 2 ExcEntry, 3 ExcReturn
    ctrl [31:6]   0
    data [31:0]   REG write: the data; CHK read, write, fetch: the number of bytes beyond the first; else 0 -/

namespace Sys2Proof

open Sys2Proof.Machine (Reject)

/-- What a packet decodes to. -/
inductive Decoded where
  | instr (i : Instr)
  | rejected (r : Reject)
deriving DecidableEq, Repr

/-- The register whose word a byte address lies in, if any (R81, R120). -/
def regOfAddr (a : Word) : Option Reg :=
  let w := wordAddr a
  if w = 0xE000ED90#32 then some .type
  else if w = 0xE000ED94#32 then some .ctrl
  else if w = 0xE000ED98#32 then some .rnr
  else if w = 0xE000ED9C#32 then some .rbar
  else if w = 0xE000EDA0#32 then some .rasr
  else if w = 0xE000EDA4#32 then some .rbarA1
  else if w = 0xE000EDA8#32 then some .rasrA1
  else if w = 0xE000EDAC#32 then some .rbarA2
  else if w = 0xE000EDB0#32 then some .rasrA2
  else if w = 0xE000EDB4#32 then some .rbarA3
  else if w = 0xE000EDB8#32 then some .rasrA3
  else none

/-- The read of a register. -/
def readOf (r : Reg) (addr : Word) (size : Size) (priv : Bool) : Instr :=
  match r with
  | .type => .mpuTypeRead addr size priv
  | .ctrl => .mpuCtrlRead addr size priv
  | .rnr => .mpuRnrRead addr size priv
  | .rbar => .mpuRbarRead addr size priv
  | .rasr => .mpuRasrRead addr size priv
  | .rbarA1 => .mpuRbarA1Read addr size priv
  | .rasrA1 => .mpuRasrA1Read addr size priv
  | .rbarA2 => .mpuRbarA2Read addr size priv
  | .rasrA2 => .mpuRasrA2Read addr size priv
  | .rbarA3 => .mpuRbarA3Read addr size priv
  | .rasrA3 => .mpuRasrA3Read addr size priv

/-- The write of a register. -/
def writeOf (r : Reg) (addr : Word) (size : Size) (priv : Bool) (data : Word) : Instr :=
  match r with
  | .type => .mpuTypeWrite addr size priv data
  | .ctrl => .mpuCtrlWrite addr size priv data
  | .rnr => .mpuRnrWrite addr size priv data
  | .rbar => .mpuRbarWrite addr size priv data
  | .rasr => .mpuRasrWrite addr size priv data
  | .rbarA1 => .mpuRbarA1Write addr size priv data
  | .rasrA1 => .mpuRasrA1Write addr size priv data
  | .rbarA2 => .mpuRbarA2Write addr size priv data
  | .rasrA2 => .mpuRasrA2Write addr size priv data
  | .rbarA3 => .mpuRbarA3Write addr size priv data
  | .rasrA3 => .mpuRasrA3Write addr size priv data

/-- The size code of a register access (log 4). -/
def sizeOfCode (code : BitVec 2) : Option Size :=
  if code = 0#2 then some .word
  else if code = 1#2 then some .byte
  else if code = 2#2 then some .half
  else none

/-- The code of a size (log 4). -/
def codeOfSize : Size → BitVec 2
  | .word => 0#2
  | .byte => 1#2
  | .half => 2#2

/-- Format REG (R80, R81). -/
def decodeReg (p : Packet) (priv write : Bool) (code : BitVec 2) : Decoded :=
  match sizeOfCode code with
  | none => .rejected .badSize
  | some size =>
    match regOfAddr p.addr with
    | none => .rejected .notAnMpuRegister
    | some r =>
      if write then .instr (writeOf r p.addr size priv p.data)
      else if p.data = 0#32 then .instr (readOf r p.addr size priv)
      else .rejected .unusedBits

/-- Format CHK (R80, R160). -/
def decodeChk (p : Packet) (priv negprio : Bool) (code : BitVec 2) : Decoded :=
  if code = 0#2 then .instr (.checkRead p.addr p.data priv negprio)
  else if code = 1#2 then .instr (.checkWrite p.addr p.data priv negprio)
  else if code = 2#2 then .instr (.checkFetch p.addr p.data priv negprio)
  else if p.data = 0#32 then .instr (.checkVector p.addr priv negprio)
  else .rejected .unusedBits

/-- Format EVT (R80). -/
def decodeEvt (p : Packet) (bit2 bit3 : Bool) (code : BitVec 2) : Decoded :=
  if p.addr = 0#32 ∧ p.data = 0#32 ∧ bit2 = false ∧ bit3 = false then
    if code = 0#2 then .instr .evtDsb
    else if code = 1#2 then .instr .evtIsb
    else if code = 2#2 then .instr .evtExcEntry
    else .instr .evtExcReturn
  else .rejected .unusedBits

/-- Format RST (R80). -/
def decodeRst (p : Packet) (bit2 bit3 : Bool) (code : BitVec 2) : Decoded :=
  if p.addr = 0#32 ∧ p.data = 0#32 ∧ bit2 = false ∧ bit3 = false ∧ code = 0#2 then .instr .reset
  else .rejected .unusedBits

/-- The operation a packet holds, or why it holds none: total on every packet. -/
def decode (p : Packet) : Decoded :=
  let bit2 := p.ctrl.getLsbD 2
  let bit3 := p.ctrl.getLsbD 3
  let code := p.ctrl.extractLsb' 4 2
  let format := p.ctrl.extractLsb' 0 2
  if p.ctrl.extractLsb' 6 26 = 0#26 then
    if format = 0#2 then decodeReg p (!bit2) bit3 code
    else if format = 1#2 then decodeChk p (!bit2) bit3 code
    else if format = 2#2 then decodeEvt p bit2 bit3 code
    else decodeRst p bit2 bit3 code
  else .rejected .unusedBits

/-- The packet's control word: the code, bits 3 and 2, and the format, least significant last. -/
def ctrlWord (code : BitVec 2) (bit3 bit2 : Bool) (format : BitVec 2) : Word :=
  0#26 ++ code ++ BitVec.ofBool bit3 ++ BitVec.ofBool bit2 ++ format

/-- The packet of a register read. -/
def packetOfRead (addr : Word) (size : Size) (priv : Bool) : Packet :=
  { addr := addr, ctrl := ctrlWord (codeOfSize size) false (!priv) 0#2, data := 0#32 }

/-- The packet of a register write. -/
def packetOfWrite (addr : Word) (size : Size) (priv : Bool) (data : Word) : Packet :=
  { addr := addr, ctrl := ctrlWord (codeOfSize size) true (!priv) 0#2, data := data }

/-- The packet of a check. -/
def packetOfCheck (code : BitVec 2) (a more : Word) (priv negprio : Bool) : Packet :=
  { addr := a, ctrl := ctrlWord code negprio (!priv) 1#2, data := more }

/-- The packet of an event. -/
def packetOfEvent (code : BitVec 2) : Packet :=
  { addr := 0#32, ctrl := ctrlWord code false false 2#2, data := 0#32 }

/-- The packet of an operation. -/
def encode : Instr → Packet
  | .mpuTypeRead addr size priv => packetOfRead addr size priv
  | .mpuTypeWrite addr size priv data => packetOfWrite addr size priv data
  | .mpuCtrlRead addr size priv => packetOfRead addr size priv
  | .mpuCtrlWrite addr size priv data => packetOfWrite addr size priv data
  | .mpuRnrRead addr size priv => packetOfRead addr size priv
  | .mpuRnrWrite addr size priv data => packetOfWrite addr size priv data
  | .mpuRbarRead addr size priv => packetOfRead addr size priv
  | .mpuRbarWrite addr size priv data => packetOfWrite addr size priv data
  | .mpuRasrRead addr size priv => packetOfRead addr size priv
  | .mpuRasrWrite addr size priv data => packetOfWrite addr size priv data
  | .mpuRbarA1Read addr size priv => packetOfRead addr size priv
  | .mpuRbarA1Write addr size priv data => packetOfWrite addr size priv data
  | .mpuRasrA1Read addr size priv => packetOfRead addr size priv
  | .mpuRasrA1Write addr size priv data => packetOfWrite addr size priv data
  | .mpuRbarA2Read addr size priv => packetOfRead addr size priv
  | .mpuRbarA2Write addr size priv data => packetOfWrite addr size priv data
  | .mpuRasrA2Read addr size priv => packetOfRead addr size priv
  | .mpuRasrA2Write addr size priv data => packetOfWrite addr size priv data
  | .mpuRbarA3Read addr size priv => packetOfRead addr size priv
  | .mpuRbarA3Write addr size priv data => packetOfWrite addr size priv data
  | .mpuRasrA3Read addr size priv => packetOfRead addr size priv
  | .mpuRasrA3Write addr size priv data => packetOfWrite addr size priv data
  | .checkRead a more priv negprio => packetOfCheck 0#2 a more priv negprio
  | .checkWrite a more priv negprio => packetOfCheck 1#2 a more priv negprio
  | .checkFetch a more priv negprio => packetOfCheck 2#2 a more priv negprio
  | .checkVector a priv negprio => packetOfCheck 3#2 a 0#32 priv negprio
  | .evtDsb => packetOfEvent 0#2
  | .evtIsb => packetOfEvent 1#2
  | .evtExcEntry => packetOfEvent 2#2
  | .evtExcReturn => packetOfEvent 3#2
  | .reset => { addr := 0#32, ctrl := ctrlWord 0#2 false false 3#2, data := 0#32 }

/-- The packet whose bits are `w`, numbered as spec/opcode_table.json numbers them: `addr` is bits [31:0], `ctrl` bits
[63:32], `data` bits [95:64]; bits from `nbits` up are 0. -/
def packetOfBits (nbits w : Nat) : Packet :=
  let v := w % 2 ^ nbits
  { addr := BitVec.ofNat 32 v
    ctrl := BitVec.ofNat 32 (v / 2 ^ 32)
    data := BitVec.ofNat 32 (v / 2 ^ 64) }

/-- What the decoder reads from an operation whose bits are `w` (the host's question). The table gives a register
operation its 32 address bits and no others, so the table's word of a register decodes to the privileged word read of
it (log 4). -/
def decodeTableWord (nbits w : Nat) : Option Instr :=
  match decode (packetOfBits nbits w) with
  | .instr i => some i
  | .rejected _ => none

end Sys2Proof
end

