-- ==== Sys2Proof/Machine/Operands.lean ====
section
/-! DEFINITION. The register words and field encodings (spec 30_encoding R82 to R94) and what a region's fields mean
(10_state R36, 41_access_check R165, R166): plain functions of words and fields, over no state. -/

namespace Sys2Proof.Machine

/-! ### Register words -/

/-- The MPU_TYPE word: DREGION = NREGIONS at [15:8], every other bit 0 (R82). -/
def typeWord (n : Regions) : Word := BitVec.ofNat 32 n.count <<< 8

/-- The MPU_CTRL word (R83). -/
def ctrlRegWord (c : Ctrl) : Word :=
  0#29 ++ BitVec.ofBool c.privdefena ++ BitVec.ofBool c.hfnmena ++ BitVec.ofBool c.enable

/-- The three fields of an MPU_CTRL word (R83). -/
def ctrlOfWord (d : Word) : Ctrl :=
  { privdefena := d.getLsbD 2, hfnmena := d.getLsbD 1, enable := d.getLsbD 0 }

/-- The MPU_RNR word (R84). -/
def rnrWord (n : BitVec 8) : Word := n.zeroExtend 32

/-- REGION of an MPU_RNR word (R84). -/
def regionOfRnr (d : Word) : BitVec 8 := d.extractLsb' 0 8

/-- The part of an MPU_RBAR word that is stored, bits [31:5] (R25, R85). -/
def baseOfRbar (d : Word) : BitVec 27 := d.extractLsb' 5 27

/-- VALID of an MPU_RBAR word (R85). -/
def validOfRbar (d : Word) : Bool := d.getLsbD 4

/-- REGION of an MPU_RBAR word (R85). -/
def regionOfRbar (d : Word) : BitVec 4 := d.extractLsb' 0 4

/-- The MPU_RBAR word of stored bits `b` and region number `n`: VALID reads 0, REGION is `n[3:0]` (R85). -/
def rbarWord (b : BitVec 27) (n : Nat) : Word := b ++ 0#1 ++ BitVec.ofNat 4 n

/-- The MPU_RASR word (R86). -/
def rasrWord (t : Attr) (enable : Bool) : Word :=
  0#3 ++ BitVec.ofBool t.xn ++ 0#1 ++ t.ap ++ 0#2 ++ t.tex ++ BitVec.ofBool t.s ++ BitVec.ofBool t.c ++
    BitVec.ofBool t.b ++ t.srd ++ 0#2 ++ t.size ++ BitVec.ofBool enable

/-- Every field of an MPU_RASR word but ENABLE (R86, R130). -/
def attrOfRasr (d : Word) : Attr :=
  { xn := d.getLsbD 28
    ap := d.extractLsb' 24 3
    tex := d.extractLsb' 19 3
    s := d.getLsbD 18
    c := d.getLsbD 17
    b := d.getLsbD 16
    srd := d.extractLsb' 8 8
    size := d.extractLsb' 1 5 }

/-- ENABLE of an MPU_RASR word (R86). -/
def enableOfRasr (d : Word) : Bool := d.getLsbD 0

/-- The reserved bits of MPU_CTRL, [31:3] (R94). -/
def ctrlReserved : Word := 0xFFFFFFF8#32

/-- The reserved bits of MPU_RNR, [31:8] (R94). -/
def rnrReserved : Word := 0xFFFFFF00#32

/-- The reserved bits of MPU_RASR, [31:29], [27], [23:22] and [7:6] (R94). -/
def rasrReserved : Word := 0xE8C000C0#32

/-! ### ADDR, N and SIZE -/

/-- N = Log2(region size in bytes) = SIZE + 1 (R87, R88). -/
def sizeLog (size : BitVec 5) : Nat := size.toNat + 1

/-- The region size in bytes (R88). -/
def regionBytes (size : BitVec 5) : Nat := 2 ^ sizeLog size

/-- Which of the 27 stored bits of a base are ADDR, address bits [31:N] (R85, R87). -/
def addrMask (size : BitVec 5) : BitVec 27 := BitVec.allOnes 27 <<< (sizeLog size - 5)

/-- The base address of a region: ADDR followed by N zero bits, and 0 when there is no ADDR field (R87). -/
def baseAddr (b : BitVec 27) (size : BitVec 5) : Word :=
  if sizeLog size = 32 then 0#32 else ((b ++ 0#5) >>> sizeLog size) <<< sizeLog size

/-- "The base address is aligned to the size of the region": the stored bits below N are 0 (R36, R87). -/
def baseAligned (b : BitVec 27) (size : BitVec 5) : Bool := b &&& ~~~(addrMask size) == 0#27

/-! ### Memory attributes and access permissions -/

/-- The cache policy of AA or BB (R90). -/
def policy (code : BitVec 2) : CachePolicy :=
  if code = 0b00#2 then .nonCacheable
  else if code = 0b01#2 then .writeBackWRA
  else if code = 0b10#2 then .writeThroughNoWA
  else .writeBackNoWA

/-- The memory attributes of TEX, C, B and S (R89, R90); `none` for the reserved encodings, TEX = 0b011 among them
(D10). -/
def attrOf (impdef : MemAttr) (tex : BitVec 3) (c b s : Bool) : Option MemAttr :=
  if tex = 0b000#3 then
    match c, b with
    | false, false => some .stronglyOrdered
    | false, true => some (.device true)
    | true, false => some (.normal s .writeThroughNoWA .writeThroughNoWA)
    | true, true => some (.normal s .writeBackNoWA .writeBackNoWA)
  else if tex = 0b001#3 then
    match c, b with
    | false, false => some (.normal s .nonCacheable .nonCacheable)
    | false, true => none
    | true, false => some impdef
    | true, true => some (.normal s .writeBackWRA .writeBackWRA)
  else if tex = 0b010#3 then
    match c, b with
    | false, false => some (.device false)
    | _, _ => none
  else if tex = 0b011#3 then none
  else some (.normal s (policy (BitVec.ofBool c ++ BitVec.ofBool b)) (policy (tex.extractLsb' 0 2)))

/-- The attribute encoding of a region is one Table 91 gives a meaning (R36, R89). -/
def attrLegal (t : Attr) : Bool := (attrOf .stronglyOrdered t.tex t.c t.b t.s).isSome

/-- A permission of Table 93. -/
inductive Perm where
  | noAccess
  | readOnly
  | readWrite
deriving DecidableEq, Repr

/-- The permission AP gives a privilege level (R91); `none` for AP = 0b100, "Unpredictable". -/
def apPerm (ap : BitVec 3) (priv : Bool) : Option Perm :=
  if ap = 0b000#3 then some .noAccess
  else if ap = 0b001#3 then some (if priv then .readWrite else .noAccess)
  else if ap = 0b010#3 then some (if priv then .readWrite else .readOnly)
  else if ap = 0b011#3 then some .readWrite
  else if ap = 0b100#3 then none
  else if ap = 0b101#3 then some (if priv then .readOnly else .noAccess)
  else some .readOnly

/-- Whether a permission lets an access of a kind through; a fetch counts as a read (R170, D11). -/
def Perm.allows : Perm → Kind → Bool
  | .noAccess, _ => false
  | .readOnly, k => k == .read || k == .fetch
  | .readWrite, _ => true

/-! ### Regions -/

/-- "If a.SIZE < 7 then a.SRD = 0x00": regions of 32, 64 and 128 bytes do not support subregions (R36, R92). -/
def srdLegal (t : Attr) : Bool := decide (7 ≤ t.size.toNat) || t.srd == 0#8

/-- A region that is disabled, or whose fields meet every constraint the source places on an enabled region (R36). -/
def Region.wellFormed (bp : BasePolicy) (r : Region) : Bool :=
  if r.enable then
    match r.attr, r.base with
    | some t, some b =>
      decide (4 ≤ t.size.toNat) && srdLegal t && t.ap != 0b100#3 && attrLegal t &&
        (bp == .mask || baseAligned b t.size)
    | _, _ => false
  else true

/-- Address `a` lies in the range of a region with stored base `b` and size field `size` (R165). -/
def inRange (b : BitVec 27) (size : BitVec 5) (a : Word) : Bool :=
  decide (sizeLog size = 32) || a >>> sizeLog size == (b ++ 0#5) >>> sizeLog size

/-- The number of the subregion that holds `a`, `a[N-1 : N-3]` (R92). -/
def subregion (size : BitVec 5) (a : Word) : Nat := a.toNat / 2 ^ (sizeLog size - 3) % 8

/-- Address `a` lies in no disabled subregion; for regions below 256 bytes SRD is not consulted (R166). -/
def subregionEnabled (t : Attr) (a : Word) : Bool :=
  decide (t.size.toNat < 7) || !t.srd.getLsbD (subregion t.size a)

/-- Address `a` hits region `r` (R166). -/
def Region.hits (r : Region) (a : Word) : Bool :=
  match r.attr, r.base with
  | some t, some b => r.enable && inRange b t.size a && subregionEnabled t a
  | _, _ => false

/-- The deciding region: the highest-numbered one that `a` hits (R167). -/
def decidingRegion (a : Word) : List Region → Option Region
  | [] => none
  | r :: rs => (decidingRegion a rs).or (if r.hits a then some r else none)

end Sys2Proof.Machine
end

