-- ==== Sys2Proof/Machine/Check.lean ====
section
/-! DEFINITION. The access check (spec 41_access_check R160 to R173, R178) and the judgement of an access of several
bytes (R180): functions of the parameters and one configuration. They read no state and write none. -/

namespace Sys2Proof.Machine

/-- What the default memory map says of an access (R178). -/
def defaultVerdict (p : Params) (a : Word) (k : Kind) : Verdict :=
  if k = .fetch ∧ (p.defaultMap a).xn = true then .memManage a .fetch else .permit (p.defaultMap a).attr

/-- What a region's attributes say of an access (R170, R171, R172). The two `none` cases are encodings that make the
region ill-formed, and an ill-formed region never decides (R164). -/
def attrVerdict (p : Params) (t : Attr) (a : Word) (k : Kind) (priv : Bool) : Verdict :=
  match apPerm t.ap priv, attrOf p.impdefAttr t.tex t.c t.b t.s with
  | some perm, some m =>
    if perm.allows k = false then .memManage a k
    else if k = .fetch ∧ t.xn = true then .memManage a .fetch
    else .permit m
  | _, _ => .unpredictable .illFormedRegion

/-- The regions judge an access: steps 6 to 9 of R173. -/
def regionsVerdict (p : Params) (c : Cfg) (a : Word) (k : Kind) (priv : Bool) : Verdict :=
  match decidingRegion a c.region with
  | some r =>
    match r.attr with
    | some t => attrVerdict p t a k priv
    | none => .unpredictable .illFormedRegion
  | none => if c.ctrl.privdefena = true ∧ priv = true then defaultVerdict p a k else .memManage a k

/-- The whole check of one byte address under configuration `c` (R173). -/
def check (p : Params) (c : Cfg) (a : Word) (k : Kind) (priv negprio : Bool) : Verdict :=
  if k = .vector then .permit (p.defaultMap a).attr
  else if p.inSCS a = true then if k = .fetch then .memManage a .fetch else .permit .stronglyOrdered
  else if p.nregions = .absent ∨ c.ctrl.enable = false then defaultVerdict p a k
  else if c.ctrl.hfnmena = false ∧ negprio = true then defaultVerdict p a k
  else if c.region.any (fun r => !r.wellFormed p.basePolicy) = true then .unpredictable .illFormedRegion
  else regionsVerdict p c a k priv

/-- Why a verdict is no verdict. -/
def Verdict.reason? : Verdict → Option Reason
  | .unpredictable r => some r
  | _ => none

/-- Of the faults among some verdicts, the one at the lowest address (R180). -/
def lowestFault : List Verdict → Option (Word × Kind)
  | [] => none
  | v :: vs =>
    match v, lowestFault vs with
    | .memManage a k, some (b, l) => if b.toNat < a.toNat then some (b, l) else some (a, k)
    | .memManage a k, none => some (a, k)
    | .permit _, f => f
    | .unpredictable _, f => f

/-- The verdict on an access from the verdicts on its bytes (R180). An access that passes 0xFFFFFFFF goes on at 0, and
its lowest faulting byte may be one of the later ones. -/
def joinVerdicts : List Verdict → Verdict
  | [] => .unpredictable .straddle
  | v :: vs =>
    match (v :: vs).findSome? Verdict.reason? with
    | some r => .unpredictable r
    | none =>
      match lowestFault (v :: vs) with
      | some (a, k) => .memManage a k
      | none => if vs.all (fun w => w == v) then v else .unpredictable .straddle

/-- The verdict on an access of `more` + 1 bytes from address `a` on, addresses modulo 2^32, under one configuration
(R180). -/
def judge (p : Params) (c : Cfg) (a : Word) (more : Nat) (k : Kind) (priv negprio : Bool) : Verdict :=
  joinVerdicts ((List.range (more + 1)).map fun i => check p c (a + BitVec.ofNat 32 i) k priv negprio)

/-- Two verdicts on one access differ as R65 means it: "permitted against fault, or permitted with different
attributes"; an access that is unpredictable under one of the two is judged differently too (DEDUCED, log 7). -/
def Verdict.differs : Verdict → Verdict → Bool
  | .permit m, .permit m' => m != m'
  | .memManage _ _, .memManage _ _ => false
  | _, _ => true

end Sys2Proof.Machine
end

