-- ==== Sys2Proof/Machine/Ops.lean ====
section
/-! DEFINITION. The named operations over the state that the meanings share: the parameters in force, raising a fault,
answering, the conditions of every register access (spec 40_register_access R120, R144), the update of the
configuration and its visibility window (20_memory R65), the choice of the configuration that judges an access (R64),
the four barrier and exception events (R69 to R72), reset (R230), a store-multiple's operations (40_register_access
R143), and fetching the next operation the processor has issued. -/

namespace Sys2Proof.Machine

/-- The result of carrying out one operation. -/
abbrev Result := Host.Outcome State Fault Refusal

/-- The operation is `unpredictable(r)`: the model refuses (R5, R8). -/
def unpredictable (r : Reason) : Result := .refused (.unpredictable r)

/-! ### Parameters -/

/-- The register block 0xE000ED90 .. 0xE000EDBB (R29, R53). -/
def inRegisterBlock (a : Word) : Bool := decide (0xE000ED90 ≤ a.toNat) && decide (a.toNat ≤ 0xE000EDBB)

/-- An address lies in a range. -/
def rangeHolds (r : AddrRange) (a : Word) : Bool :=
  decide (r.first.toNat ≤ a.toNat) && decide (a.toNat ≤ r.last.toNat)

/-- `inSCS`: it contains the register block, which is all the rules require of it (K2), and what the implementation says
(D13). -/
def inSCS (scs : List AddrRange) (a : Word) : Bool := inRegisterBlock a || scs.any fun r => rangeHolds r a

/-- The parameters of the check on this machine (R6). -/
def State.params (s : State) : Params :=
  { nregions := s.impl.nregions
    basePolicy := s.impl.basePolicy
    defaultMap := Config.defaultMap
    inSCS := inSCS s.impl.scs
    impdefAttr := Config.impdefAttr }

/-! ### Replies -/

/-- The operation is over with reply `r`: `Ok`, a value or a permission (R5). -/
def State.answer (s : State) (r : Reply) : State := { s with reply := r }

/-- Taking the fault of an operation: its outcome is the fault, "nothing else of the rule happens" (R8, R120, R206;
log 3). -/
def State.raise (s : State) (r : Reply) : State := { s with reply := r }

/-- The next draw of the free values is a fresh one (log 6). -/
def State.drawn (s : State) : State := { s with draws := s.draws + 1 }

/-- The reply is one of the two faults. -/
def Reply.isFault : Reply → Bool
  | .memManage _ _ => true
  | .regPriv => true
  | _ => false

/-- The outcome of a check with verdict `v`: the attributes, the MemManage fault taken (R200, R206), or the refusal
(R160). -/
def conclude (s : State) (v : Verdict) : Result :=
  match v with
  | .permit m => .next (s.answer (.permit m))
  | .memManage a k => .next (s.raise (.memManage a k))
  | .unpredictable r => unpredictable r

/-! ### Register accesses -/

/-- The size and alignment of a register access are those R53 defines. -/
def aligned (addr : Word) (size : Size) : Bool := size == .word && addr.extractLsb' 0 2 == 0#2

/-- RegPre without its last line: size and alignment first, then privilege (R120). -/
def regPre (addr : Word) (size : Size) (priv : Bool) (s : State) (go : Result) : Result :=
  if aligned addr size = false then unpredictable .regAccessSize
  else if priv = false then .next (s.raise .regPriv)
  else go

/-- RegPre whole (R120), for every register operation but the read of MPU_TYPE: without an MPU the operation is
unpredictable (R144). -/
def regPrePresent (addr : Word) (size : Size) (priv : Bool) (s : State) (go : Result) : Result :=
  regPre addr size priv s (if s.impl.nregions = .absent then unpredictable .mpuAbsent else go)

/-- `data` has a one in a reserved position and the policy is to refuse it (R94). -/
def reservedRefused (s : State) (data reserved : Word) : Bool :=
  data &&& reserved != 0#32 && s.impl.reservedPolicy == .refuse

/-- The entry's access would get a different verdict under configuration `c` (R65). -/
def Access.changed (p : Params) (c : Cfg) (e : Access) : Bool :=
  (judge p c e.addr e.more.toNat e.kind e.priv e.negprio).differs e.verdict

/-- `win ∪ {c}`. -/
def addCfg (win : List Cfg) (c : Cfg) : List Cfg := if c ∈ win then win else win ++ [c]

/-- The state after a register write has made `c`, another configuration, the current one (R65). -/
def State.adopt (s : State) (c : Cfg) : State :=
  { s with
    cfg := c
    winData := addCfg s.winData c
    winFetch := addCfg s.winFetch c
    dsbDone := false
    inHandlerOnly := if s.depth = 0 then false else s.inHandlerOnly
    reply := .ok }

/-- A register write makes `c` the configuration, and the window follows (R65): nothing more when nothing changes;
`unpredictable(outstanding_transfer)` when a data access made since the last DSB would be judged differently. -/
def commit (s : State) (c : Cfg) : Result :=
  if c = s.cfg then .next (s.answer .ok)
  else if s.accLog.any (Access.changed s.params c) = true then unpredictable .outstandingTransfer
  else .next (s.adopt c)

/-- Region `n` of a configuration. -/
def Cfg.regionAt (c : Cfg) (n : Nat) : Region := c.region.getD n Region.reset

/-- A configuration with region `n` replaced. -/
def Cfg.setRegion (c : Cfg) (n : Nat) (r : Region) : Cfg := { c with region := c.region.set n r }

/-- The number of the region a read of MPU_RBAR or MPU_RASR shows: MPU_RNR, or a drawn region number while MPU_RNR is
Unknown (R127, R129). -/
def shownRegion (s : State) : Nat :=
  match s.cfg.rnr with
  | some n => n.toNat
  | none => Config.freeRegion s.draws % s.impl.nregions.count

/-- MPU_RNR holds the number of no region: a state no run reaches (log 8). -/
def strayRnr (s : State) : Option (BitVec 8) :=
  match s.cfg.rnr with
  | some n => if n.toNat < s.impl.nregions.count then none else some n
  | none => none

/-- The word a read of MPU_RNR returns (R125). -/
def rnrRead (s : State) : Word :=
  match s.cfg.rnr with
  | some n => rnrWord n
  | none => rnrWord (Config.freeRnr s.draws)

/-- Bits [31:5] of the word a read of MPU_RBAR returns, from the selected region (R127): ADDR bits read as stored, a
stored one in a position that is or may be reserved reads as a draw, a stored zero as 0. -/
def rbarReadBits (r : Region) (freeBase freeReserved : BitVec 27) : BitVec 27 :=
  let stored := match r.base with
    | some b => b
    | none => freeBase
  let addrBits := match r.attr with
    | some t => addrMask t.size
    | none => 0#27
  if stored &&& ~~~addrBits = 0#27 then stored
  else (stored &&& addrBits) ||| (stored &&& ~~~addrBits &&& freeReserved)

/-- The word a read of MPU_RBAR returns (R127). -/
def rbarRead (s : State) : Word :=
  rbarWord
    (rbarReadBits (s.cfg.regionAt (shownRegion s)) (Config.freeBase s.draws) (Config.freeReserved s.draws))
    (shownRegion s)

/-- The word a read of MPU_RASR returns (R129). -/
def rasrRead (s : State) : Word :=
  let r := s.cfg.regionAt (shownRegion s)
  match r.attr with
  | some t => rasrWord t r.enable
  | none => rasrWord (Config.freeAttr s.draws) r.enable

/-- A read of MPU_RBAR at any of its four addresses (R127, R131, R135, R139). -/
def readRbar (addr : Word) (size : Size) (priv : Bool) (s : State) : Result :=
  regPrePresent addr size priv s
    (match strayRnr s with
      | some n => .fault (.noSuchRegion n)
      | none => .next (s.drawn.answer (.value (rbarRead s))))

/-- The configuration after region `n`'s base is written with word `data` (R128). -/
def Cfg.withBase (c : Cfg) (n : Nat) (data : Word) : Cfg :=
  c.setRegion n { c.regionAt n with base := some (baseOfRbar data) }

/-- A write of MPU_RBAR at any of its four addresses (R128, R132, R136, R140). -/
def writeRbar (addr : Word) (size : Size) (priv : Bool) (data : Word) (s : State) : Result :=
  regPrePresent addr size priv s
    (if validOfRbar data = true then
      if (regionOfRbar data).toNat < s.impl.nregions.count then
        commit s
          (Cfg.withBase { s.cfg with rnr := some ((regionOfRbar data).zeroExtend 8) } (regionOfRbar data).toNat data)
      else unpredictable .regionNumber
    else
      match s.cfg.rnr, strayRnr s with
      | none, _ => unpredictable .unknownState
      | some _, some n => .fault (.noSuchRegion n)
      | some n, none => commit s (s.cfg.withBase n.toNat data))

/-- A read of MPU_RASR at any of its four addresses (R129, R133, R137, R141). -/
def readRasr (addr : Word) (size : Size) (priv : Bool) (s : State) : Result :=
  regPrePresent addr size priv s
    (match strayRnr s with
      | some n => .fault (.noSuchRegion n)
      | none => .next (s.drawn.answer (.value (rasrRead s))))

/-- The configuration after region `n`'s attributes, size and enable bit are written with word `data` (R130). -/
def Cfg.withRasr (c : Cfg) (n : Nat) (data : Word) : Cfg :=
  c.setRegion n { c.regionAt n with attr := some (attrOfRasr data), enable := enableOfRasr data }

/-- A write of MPU_RASR at any of its four addresses (R130, R134, R138, R142). -/
def writeRasr (addr : Word) (size : Size) (priv : Bool) (data : Word) (s : State) : Result :=
  regPrePresent addr size priv s
    (if reservedRefused s data rasrReserved = true then unpredictable .reservedBits
    else
      match s.cfg.rnr, strayRnr s with
      | none, _ => unpredictable .unknownState
      | some _, some n => .fault (.noSuchRegion n)
      | some n, none => commit s (s.cfg.withRasr n.toNat data))

/-! ### Checks -/

/-- The configuration that judges an access: any member of the window, chosen freely (R64). -/
def choose (win : List Cfg) (c : Cfg) (k : Nat) : Cfg :=
  match win with
  | [] => c
  | [d] => d
  | d :: e :: win => (d :: e :: win).getD (Config.freeChoice k % (d :: e :: win).length) c

/-- The verdict on an access under the configuration chosen from `win` (R64, R180). -/
def judgeIn (win : List Cfg) (a more : Word) (k : Kind) (priv negprio : Bool) (s : State) : Verdict :=
  judge s.params (choose win s.cfg s.draws) a more.toNat k priv negprio

/-- A data access and its verdict enter the log (R64, R65). -/
def State.logged (s : State) (a more : Word) (k : Kind) (priv negprio : Bool) (v : Verdict) : State :=
  { s with
    accLog := s.accLog ++ [{ addr := a, more := more, kind := k, priv := priv, negprio := negprio, verdict := v }] }

/-- A data access is judged by a member of `win_data` and logged, whether it is permitted or faults (R64, R174, R175,
V13); an unpredictable verdict refuses it. -/
def checkData (a more : Word) (k : Kind) (priv negprio : Bool) (s : State) : Result :=
  conclude (s.drawn.logged a more k priv negprio (judgeIn s.winData a more k priv negprio s))
    (judgeIn s.winData a more k priv negprio s)

/-- An instruction fetch is judged by a member of `win_fetch` (R64, R176). -/
def checkFetched (a more : Word) (priv negprio : Bool) (s : State) : Result :=
  conclude s.drawn (judgeIn s.winFetch a more .fetch priv negprio s)

/-- A vector read is permitted under every configuration (R64, R163(b), R177). -/
def checkVectored (a : Word) (priv negprio : Bool) (s : State) : Result :=
  conclude s (check s.params s.cfg a .vector priv negprio)

/-! ### Events and reset -/

/-- DSB (R69). -/
def State.dsb (s : State) : State :=
  { s with winData := [s.cfg], accLog := [], dsbDone := true, reply := .ok }

/-- ISB (R70): nothing unless a DSB has followed the last change of `cfg`. -/
def State.isb (s : State) : State :=
  { s with
    winFetch := if s.dsbDone = true then [s.cfg] else s.winFetch
    inHandlerOnly := if s.dsbDone = true then true else s.inHandlerOnly
    reply := .ok }

/-- The processor takes an exception, any exception (R71, R206(c)): the one thing the spec records of it. -/
def State.enterException (s : State) : State := { s with depth := s.depth + 1, reply := .ok }

/-- The processor returns from an exception (R72, R207): as good as an ISB when the whole programming sequence ran in
a handler and a DSB has followed it. -/
def State.returnException (s : State) : State :=
  { s with
    winFetch := if 1 ≤ s.depth ∧ s.dsbDone = true ∧ s.inHandlerOnly = true then [s.cfg] else s.winFetch
    depth := s.depth - 1
    reply := .ok }

/-- Reset (R230): every piece of the MPU's state at its reset value; the implementation's parameters and the model's
own fields `draws` and `pending` stay (logs 1, 2, 6). -/
def State.afterReset (s : State) : State :=
  { s with
    cfg := Cfg.reset s.impl.nregions.count
    winData := [Cfg.reset s.impl.nregions.count]
    winFetch := [Cfg.reset s.impl.nregions.count]
    accLog := []
    dsbDone := true
    depth := 0
    inHandlerOnly := true
    reply := .ok }

/-! ### Operations issued by the processor -/

/-- The word writes of a store-multiple after the first (R143). -/
def storeWords (addr : Word) (priv : Bool) : List Word → List Packet
  | [] => []
  | w :: ws => packetOfWrite addr .word priv w :: storeWords (addr + 4#32) priv ws

/-- A store-multiple of the words `w :: ws` to `addr`: one word write per register, in ascending address order
(R143). -/
def storeMultiple (addr : Word) (priv : Bool) (w : Word) (ws : List Word) : Burst :=
  { head := packetOfWrite addr .word priv w, rest := storeWords (addr + 4#32) priv ws }

/-- What a fetch takes from the queue: the next packet, the rest of its burst, and the state without either. -/
structure Fetched where
  packet : Packet
  rest : List Packet
  state : State

/-- Fetching the next operation: the first packet of the oldest burst (log 1). -/
def fetch (s : State) : Option Fetched :=
  match s.pending with
  | [] => none
  | b :: bs => some { packet := b.head, rest := b.rest, state := { s with pending := bs } }

/-- The rest of a burst goes back to the front of the queue, unless the operation faulted: "the sequence stops at the
first operation whose outcome is not Ok" (R143). -/
def State.resume (s : State) (rest : List Packet) : State :=
  { s with
    pending :=
      match rest with
      | [] => s.pending
      | q :: qs => if s.reply.isFault = true then s.pending else { head := q, rest := qs } :: s.pending }

/-- What follows an operation of a burst: its outcome, with the rest of the burst to come (R143). -/
def resumeAfter (rest : List Packet) : Result → Result
  | .next t => .next (t.resume rest)
  | .fault f => .fault f
  | .refused r => .refused r

end Sys2Proof.Machine
end

