-- ==== Sys2Proof/Machine/Checks.lean ====
section
/-! DEFINITION. The meanings of the four checks (spec 41_access_check R174 to R177). -/

namespace Sys2Proof.Machine

/-- CHECK.read (R174; several bytes, R180). -/
def execCheckRead (a more : Word) (priv negprio : Bool) (s : State) : Result :=
  checkData a more .read priv negprio s

/-- CHECK.write (R175; several bytes, R180). -/
def execCheckWrite (a more : Word) (priv negprio : Bool) (s : State) : Result :=
  checkData a more .write priv negprio s

/-- CHECK.fetch (R176; several bytes, R180). -/
def execCheckFetch (a more : Word) (priv negprio : Bool) (s : State) : Result :=
  checkFetched a more priv negprio s

/-- CHECK.vector (R177). -/
def execCheckVector (a : Word) (priv negprio : Bool) (s : State) : Result :=
  checkVectored a priv negprio s

end Sys2Proof.Machine
end

