-- ==== Sys2Proof/Machine/Events.lean ====
section
/-! DEFINITION. The meanings of the barrier and exception events (spec 20_memory R69 to R72) and of reset
(70_reset_and_hazards R230). No event has an outcome other than Ok. -/

namespace Sys2Proof.Machine

/-- EVT.DSB (R69). -/
def execEvtDsb (s : State) : Result := .next s.dsb

/-- EVT.ISB (R70). -/
def execEvtIsb (s : State) : Result := .next s.isb

/-- EVT.ExcEntry (R71). -/
def execEvtExcEntry (s : State) : Result := .next s.enterException

/-- EVT.ExcReturn (R72). -/
def execEvtExcReturn (s : State) : Result := .next s.returnException

/-- RESET (R230). -/
def execReset (s : State) : Result := .next s.afterReset

end Sys2Proof.Machine
end

