-- ==== Sys2Proof/Machine/Registers.lean ====
section
/-! DEFINITION. The meanings of the register operations (spec 40_register_access R121 to R142). -/

namespace Sys2Proof.Machine

/-- MPU_TYPE.read (R121): NREGIONS in DREGION, and 0 with no MPU present ("RAZ", R144). -/
def execMpuTypeRead (addr : Word) (size : Size) (priv : Bool) (s : State) : Result :=
  regPre addr size priv s (.next (s.answer (.value (typeWord s.impl.nregions))))

/-- MPU_TYPE.write (R122): the register is read-only and the source does not say what a write does. -/
def execMpuTypeWrite (addr : Word) (size : Size) (priv : Bool) (_data : Word) (s : State) : Result :=
  regPrePresent addr size priv s (unpredictable .writeToReadOnly)

/-- MPU_CTRL.read (R123). -/
def execMpuCtrlRead (addr : Word) (size : Size) (priv : Bool) (s : State) : Result :=
  regPrePresent addr size priv s (.next (s.answer (.value (ctrlRegWord s.cfg.ctrl))))

/-- MPU_CTRL.write (R124). -/
def execMpuCtrlWrite (addr : Word) (size : Size) (priv : Bool) (data : Word) (s : State) : Result :=
  regPrePresent addr size priv s
    (if reservedRefused s data ctrlReserved = true then unpredictable .reservedBits
    else if (ctrlOfWord data).enable = false ∧ (ctrlOfWord data).hfnmena = true then
      unpredictable .hfnmenaWithoutEnable
    else commit s { s.cfg with ctrl := ctrlOfWord data })

/-- MPU_RNR.read (R125). -/
def execMpuRnrRead (addr : Word) (size : Size) (priv : Bool) (s : State) : Result :=
  regPrePresent addr size priv s (.next (s.drawn.answer (.value (rnrRead s))))

/-- MPU_RNR.write (R126). -/
def execMpuRnrWrite (addr : Word) (size : Size) (priv : Bool) (data : Word) (s : State) : Result :=
  regPrePresent addr size priv s
    (if reservedRefused s data rnrReserved = true then unpredictable .reservedBits
    else if (regionOfRnr data).toNat < s.impl.nregions.count then
      commit s { s.cfg with rnr := some (regionOfRnr data) }
    else unpredictable .regionNumber)

/-- MPU_RBAR.read (R127). -/
def execMpuRbarRead (addr : Word) (size : Size) (priv : Bool) (s : State) : Result :=
  readRbar addr size priv s

/-- MPU_RBAR.write (R128). -/
def execMpuRbarWrite (addr : Word) (size : Size) (priv : Bool) (data : Word) (s : State) : Result :=
  writeRbar addr size priv data s

/-- MPU_RASR.read (R129). -/
def execMpuRasrRead (addr : Word) (size : Size) (priv : Bool) (s : State) : Result :=
  readRasr addr size priv s

/-- MPU_RASR.write (R130). -/
def execMpuRasrWrite (addr : Word) (size : Size) (priv : Bool) (data : Word) (s : State) : Result :=
  writeRasr addr size priv data s

/-- MPU_RBAR_A1.read (R131, identical to R127). -/
def execMpuRbarA1Read (addr : Word) (size : Size) (priv : Bool) (s : State) : Result :=
  readRbar addr size priv s

/-- MPU_RBAR_A1.write (R132, identical to R128). -/
def execMpuRbarA1Write (addr : Word) (size : Size) (priv : Bool) (data : Word) (s : State) : Result :=
  writeRbar addr size priv data s

/-- MPU_RASR_A1.read (R133, identical to R129). -/
def execMpuRasrA1Read (addr : Word) (size : Size) (priv : Bool) (s : State) : Result :=
  readRasr addr size priv s

/-- MPU_RASR_A1.write (R134, identical to R130). -/
def execMpuRasrA1Write (addr : Word) (size : Size) (priv : Bool) (data : Word) (s : State) : Result :=
  writeRasr addr size priv data s

/-- MPU_RBAR_A2.read (R135, identical to R127). -/
def execMpuRbarA2Read (addr : Word) (size : Size) (priv : Bool) (s : State) : Result :=
  readRbar addr size priv s

/-- MPU_RBAR_A2.write (R136, identical to R128). -/
def execMpuRbarA2Write (addr : Word) (size : Size) (priv : Bool) (data : Word) (s : State) : Result :=
  writeRbar addr size priv data s

/-- MPU_RASR_A2.read (R137, identical to R129). -/
def execMpuRasrA2Read (addr : Word) (size : Size) (priv : Bool) (s : State) : Result :=
  readRasr addr size priv s

/-- MPU_RASR_A2.write (R138, identical to R130). -/
def execMpuRasrA2Write (addr : Word) (size : Size) (priv : Bool) (data : Word) (s : State) : Result :=
  writeRasr addr size priv data s

/-- MPU_RBAR_A3.read (R139, identical to R127). -/
def execMpuRbarA3Read (addr : Word) (size : Size) (priv : Bool) (s : State) : Result :=
  readRbar addr size priv s

/-- MPU_RBAR_A3.write (R140, identical to R128). -/
def execMpuRbarA3Write (addr : Word) (size : Size) (priv : Bool) (data : Word) (s : State) : Result :=
  writeRbar addr size priv data s

/-- MPU_RASR_A3.read (R141, identical to R129). -/
def execMpuRasrA3Read (addr : Word) (size : Size) (priv : Bool) (s : State) : Result :=
  readRasr addr size priv s

/-- MPU_RASR_A3.write (R142, identical to R130). -/
def execMpuRasrA3Write (addr : Word) (size : Size) (priv : Bool) (data : Word) (s : State) : Result :=
  writeRasr addr size priv data s

end Sys2Proof.Machine
end

