-- ==== Sys2Proof/Machine/Dispatch.lean ====
section
/-! DEFINITION. Which meaning each operation has: one arm for each row of spec/opcode_table.json. -/

namespace Sys2Proof.Machine

/-- Carrying out one operation. -/
def exec (i : Instr) (s : State) : Host.Outcome State Fault Refusal :=
  match i with
  | .mpuTypeRead addr size priv => Sys2Proof.Machine.execMpuTypeRead addr size priv s
  | .mpuTypeWrite addr size priv data => Sys2Proof.Machine.execMpuTypeWrite addr size priv data s
  | .mpuCtrlRead addr size priv => Sys2Proof.Machine.execMpuCtrlRead addr size priv s
  | .mpuCtrlWrite addr size priv data => Sys2Proof.Machine.execMpuCtrlWrite addr size priv data s
  | .mpuRnrRead addr size priv => Sys2Proof.Machine.execMpuRnrRead addr size priv s
  | .mpuRnrWrite addr size priv data => Sys2Proof.Machine.execMpuRnrWrite addr size priv data s
  | .mpuRbarRead addr size priv => Sys2Proof.Machine.execMpuRbarRead addr size priv s
  | .mpuRbarWrite addr size priv data => Sys2Proof.Machine.execMpuRbarWrite addr size priv data s
  | .mpuRasrRead addr size priv => Sys2Proof.Machine.execMpuRasrRead addr size priv s
  | .mpuRasrWrite addr size priv data => Sys2Proof.Machine.execMpuRasrWrite addr size priv data s
  | .mpuRbarA1Read addr size priv => Sys2Proof.Machine.execMpuRbarA1Read addr size priv s
  | .mpuRbarA1Write addr size priv data => Sys2Proof.Machine.execMpuRbarA1Write addr size priv data s
  | .mpuRasrA1Read addr size priv => Sys2Proof.Machine.execMpuRasrA1Read addr size priv s
  | .mpuRasrA1Write addr size priv data => Sys2Proof.Machine.execMpuRasrA1Write addr size priv data s
  | .mpuRbarA2Read addr size priv => Sys2Proof.Machine.execMpuRbarA2Read addr size priv s
  | .mpuRbarA2Write addr size priv data => Sys2Proof.Machine.execMpuRbarA2Write addr size priv data s
  | .mpuRasrA2Read addr size priv => Sys2Proof.Machine.execMpuRasrA2Read addr size priv s
  | .mpuRasrA2Write addr size priv data => Sys2Proof.Machine.execMpuRasrA2Write addr size priv data s
  | .mpuRbarA3Read addr size priv => Sys2Proof.Machine.execMpuRbarA3Read addr size priv s
  | .mpuRbarA3Write addr size priv data => Sys2Proof.Machine.execMpuRbarA3Write addr size priv data s
  | .mpuRasrA3Read addr size priv => Sys2Proof.Machine.execMpuRasrA3Read addr size priv s
  | .mpuRasrA3Write addr size priv data => Sys2Proof.Machine.execMpuRasrA3Write addr size priv data s
  | .checkRead a more priv negprio => Sys2Proof.Machine.execCheckRead a more priv negprio s
  | .checkWrite a more priv negprio => Sys2Proof.Machine.execCheckWrite a more priv negprio s
  | .checkFetch a more priv negprio => Sys2Proof.Machine.execCheckFetch a more priv negprio s
  | .checkVector a priv negprio => Sys2Proof.Machine.execCheckVector a priv negprio s
  | .evtDsb => Sys2Proof.Machine.execEvtDsb s
  | .evtIsb => Sys2Proof.Machine.execEvtIsb s
  | .evtExcEntry => Sys2Proof.Machine.execEvtExcEntry s
  | .evtExcReturn => Sys2Proof.Machine.execEvtExcReturn s
  | .reset => Sys2Proof.Machine.execReset s

end Sys2Proof.Machine
end

