-- ==== Sys2Proof/Machine/Step.lean ====
section
/-! DEFINITION. One step of the machine: the next operation the processor has issued is decoded and carried out; with
none issued nothing happens, since "the MPU itself has no step of its own" (spec 00_scope R5). -/

namespace Sys2Proof.Machine

/-- One step. -/
def step (s : State) : Host.Outcome State Fault Refusal :=
  match fetch s with
  | none => .next s
  | some f =>
    match decode f.packet with
    | .instr i => resumeAfter f.rest (exec i f.state)
    | .rejected r => .refused (.badPacket r)

/-- `s` with the operation whose bits are `w` issued as the next one, in front of what is already pending (log 1). -/
def State.withFetchWord (s : State) (nbits w : Nat) : State :=
  { s with pending := { head := packetOfBits nbits w, rest := [] } :: s.pending }

end Sys2Proof.Machine
end

