-- ==== Sys2Proof/Safety.lean ====
section
/-! DEFINITION. The terms the claims are stated in: which operations are register accesses, what a legal configuration
and a sound state are, when the windows are synchronised, what a register write does to the state, the position of an
address in a region, and the run of a list of operations. -/

namespace Sys2Proof

/-- The privilege of a register operation and, for a write, that it is one; `none` for every other operation. -/
def Instr.regAccess? : Instr → Option (Bool × Bool)
  | .mpuTypeRead _ _ priv => some (priv, false)
  | .mpuTypeWrite _ _ priv _ => some (priv, true)
  | .mpuCtrlRead _ _ priv => some (priv, false)
  | .mpuCtrlWrite _ _ priv _ => some (priv, true)
  | .mpuRnrRead _ _ priv => some (priv, false)
  | .mpuRnrWrite _ _ priv _ => some (priv, true)
  | .mpuRbarRead _ _ priv => some (priv, false)
  | .mpuRbarWrite _ _ priv _ => some (priv, true)
  | .mpuRasrRead _ _ priv => some (priv, false)
  | .mpuRasrWrite _ _ priv _ => some (priv, true)
  | .mpuRbarA1Read _ _ priv => some (priv, false)
  | .mpuRbarA1Write _ _ priv _ => some (priv, true)
  | .mpuRasrA1Read _ _ priv => some (priv, false)
  | .mpuRasrA1Write _ _ priv _ => some (priv, true)
  | .mpuRbarA2Read _ _ priv => some (priv, false)
  | .mpuRbarA2Write _ _ priv _ => some (priv, true)
  | .mpuRasrA2Read _ _ priv => some (priv, false)
  | .mpuRasrA2Write _ _ priv _ => some (priv, true)
  | .mpuRbarA3Read _ _ priv => some (priv, false)
  | .mpuRbarA3Write _ _ priv _ => some (priv, true)
  | .mpuRasrA3Read _ _ priv => some (priv, false)
  | .mpuRasrA3Write _ _ priv _ => some (priv, true)
  | .checkRead _ _ _ _ => none
  | .checkWrite _ _ _ _ => none
  | .checkFetch _ _ _ _ => none
  | .checkVector _ _ _ => none
  | .evtDsb => none
  | .evtIsb => none
  | .evtExcEntry => none
  | .evtExcReturn => none
  | .reset => none

/-- A read of a register. -/
abbrev Instr.isRegRead (i : Instr) : Prop := i.regAccess? = some (true, false) ∨ i.regAccess? = some (false, false)

/-- A write of a register. -/
abbrev Instr.isRegWrite (i : Instr) : Prop := i.regAccess? = some (true, true) ∨ i.regAccess? = some (false, true)

/-- A register access of either kind by unprivileged software. -/
abbrev Instr.isUnprivilegedRegAccess (i : Instr) : Prop :=
  i.regAccess? = some (false, false) ∨ i.regAccess? = some (false, true)

/-- The reads of MPU_RBAR: its own address and the three others of Table 84 (spec 10_state R27). -/
def rbarReads : List (Reg × (Word → Size → Bool → Instr)) :=
  [(.rbar, .mpuRbarRead), (.rbarA1, .mpuRbarA1Read), (.rbarA2, .mpuRbarA2Read), (.rbarA3, .mpuRbarA3Read)]

/-- The writes of MPU_RBAR (10_state R27). -/
def rbarWrites : List (Reg × (Word → Size → Bool → Word → Instr)) :=
  [(.rbar, .mpuRbarWrite), (.rbarA1, .mpuRbarA1Write), (.rbarA2, .mpuRbarA2Write), (.rbarA3, .mpuRbarA3Write)]

/-- The reads of MPU_RASR (10_state R27). -/
def rasrReads : List (Reg × (Word → Size → Bool → Instr)) :=
  [(.rasr, .mpuRasrRead), (.rasrA1, .mpuRasrA1Read), (.rasrA2, .mpuRasrA2Read), (.rasrA3, .mpuRasrA3Read)]

/-- The writes of MPU_RASR (10_state R27). -/
def rasrWrites : List (Reg × (Word → Size → Bool → Word → Instr)) :=
  [(.rasr, .mpuRasrWrite), (.rasrA1, .mpuRasrA1Write), (.rasrA2, .mpuRasrA2Write), (.rasrA3, .mpuRasrA3Write)]

end Sys2Proof

namespace Sys2Proof.Machine

/-- A configuration every run keeps to, for an MPU of `n` regions: `n` bank entries (R20), a region number below `n`
(R23, R126, R128), never HFNMENA without ENABLE (R22, R124), and no enabled region without attributes (R33). -/
abbrev Cfg.Legal (n : Nat) (c : Cfg) : Prop :=
  c.region.length = n ∧ (∀ r ∈ c.rnr, r.toNat < n) ∧ (c.ctrl.hfnmena = true → c.ctrl.enable = true) ∧
    (∀ r ∈ c.region, r.enable = true → r.attr.isSome = true)

/-- A logged access is a data access, judged permitted or faulting (R64). -/
abbrev Access.Legal (e : Access) : Prop :=
  (e.kind = .read ∨ e.kind = .write) ∧ e.verdict.reason? = none

/-- What every step keeps: legal configurations, windows that are sets and hold the current configuration (R64), a
data window inside the fetch window, a data window of one configuration while no change has followed a DSB (R65), and a
log of data accesses. -/
abbrev State.Inv (s : State) : Prop :=
  s.cfg.Legal s.impl.nregions.count ∧
    (s.cfg ∈ s.winData ∧ s.winData.Nodup ∧ ∀ c ∈ s.winData, c.Legal s.impl.nregions.count) ∧
    (s.winFetch.Nodup ∧ ∀ c ∈ s.winFetch, c.Legal s.impl.nregions.count) ∧
    (∀ c ∈ s.winData, c ∈ s.winFetch) ∧ (s.dsbDone = true → s.winData = [s.cfg]) ∧
    (∀ e ∈ s.accLog, e.Legal)

/-- Every later access is judged by the current configuration alone (R66). -/
abbrev State.Synchronised (s : State) : Prop := s.winData = [s.cfg] ∧ s.winFetch = [s.cfg]

/-- A register access R120 lets through: an aligned word access by privileged software. -/
abbrev Accepted (addr : Word) (size : Size) (priv : Bool) : Prop :=
  size = .word ∧ addr.toNat % 4 = 0 ∧ priv = true

/-- What R120 says of a register access it does not let through: size and alignment first, then privilege. -/
def RegPreRule (s : State) (addr : Word) (size : Size) (priv : Bool) (res : Result) : Prop :=
  (size ≠ .word ∨ addr.toNat % 4 ≠ 0 → res = .refused (.unpredictable .regAccessSize)) ∧
    (size = .word → addr.toNat % 4 = 0 → priv = false → res = .next { s with reply := .regPriv })

/-- `RegPreRule`, and the refusal of R144 when no MPU is present. -/
def RegPrePresentRule (s : State) (addr : Word) (size : Size) (priv : Bool) (res : Result) : Prop :=
  RegPreRule s addr size priv res ∧
    (Accepted addr size priv → s.impl.nregions = .absent → res = .refused (.unpredictable .mpuAbsent))

/-- What R65 says of the windows and the bookkeeping when a register write takes `s` to `t`. -/
def WindowRule (s t : State) : Prop :=
  if t.cfg = s.cfg then
    t.winData = s.winData ∧ t.winFetch = s.winFetch ∧ t.dsbDone = s.dsbDone ∧ t.inHandlerOnly = s.inHandlerOnly
  else
    (∀ d, d ∈ t.winData ↔ d ∈ s.winData ∨ d = t.cfg) ∧ (∀ d, d ∈ t.winFetch ↔ d ∈ s.winFetch ∨ d = t.cfg) ∧
      t.dsbDone = false ∧ t.inHandlerOnly = (if s.depth = 0 then false else s.inHandlerOnly)

/-- Everything a register write leaves alone: the parameters, the log, the exception depth, the draws and the issued
operations. -/
abbrev WriteFrame (s t : State) : Prop :=
  t.impl = s.impl ∧ t.accLog = s.accLog ∧ t.depth = s.depth ∧ t.draws = s.draws ∧ t.pending = s.pending

/-- Everything a register read leaves alone: all of the MPU's state. -/
abbrev ReadFrame (s t : State) : Prop :=
  t.impl = s.impl ∧ t.cfg = s.cfg ∧ t.winData = s.winData ∧ t.winFetch = s.winFetch ∧ t.accLog = s.accLog ∧
    t.dsbDone = s.dsbDone ∧ t.depth = s.depth ∧ t.inHandlerOnly = s.inHandlerOnly ∧ t.pending = s.pending

/-- No data access made since the last DSB would get a different verdict under `c` (R65). -/
abbrev State.Undisturbed (s : State) (c : Cfg) : Prop := ∀ e ∈ s.accLog, e.changed s.params c = false

/-- `res` is what R65 makes of a register write in state `s` that asks for configuration `c`: refused when `c` differs
from the current one and would change the verdict of a logged access, and otherwise done. -/
def Writes (s : State) (c : Cfg) (res : Result) : Prop :=
  (c ≠ s.cfg → ¬ s.Undisturbed c → res = .refused (.unpredictable .outstandingTransfer)) ∧
    (c = s.cfg ∨ s.Undisturbed c →
      ∃ t, res = .next t ∧ t.cfg = c ∧ t.reply = .ok ∧ WindowRule s t ∧ WriteFrame s t)

/-- Address `a` lies in the 2^N bytes from the region's base on (R165). -/
abbrev covers (b : BitVec 27) (size : BitVec 5) (a : Word) : Prop :=
  (baseAddr b size).toNat ≤ a.toNat ∧ a.toNat < (baseAddr b size).toNat + regionBytes size

/-- Every region of the configuration is well-formed (R36). -/
abbrev Cfg.WellFormed (bp : BasePolicy) (c : Cfg) : Prop := ∀ r ∈ c.region, r.wellFormed bp = true

/-- The MPU is in effect for an access: none of R161, R162 and R163 has decided it (R164). -/
abbrev InEffect (p : Params) (c : Cfg) (a : Word) (negprio : Bool) : Prop :=
  p.inSCS a = false ∧ p.nregions ≠ .absent ∧ c.ctrl.enable = true ∧ (c.ctrl.hfnmena = true ∨ negprio = false)

/-- Region `n` decides address `a`: `a` hits it and hits no region of a higher number (R167). -/
abbrev Decides (c : Cfg) (a : Word) (n : Nat) (r : Region) : Prop :=
  c.region[n]? = some r ∧ r.hits a = true ∧ ∀ (m : Nat) (r' : Region), n < m → c.region[m]? = some r' → r'.hits a = false

/-- Table 93 read as lists of AP values: those that let an access of a kind through at a privilege level (R91, R170). -/
def allowedByAP (ap : BitVec 3) (priv : Bool) : Kind → Prop
  | .write => if priv then ap ∈ [0b001#3, 0b010#3, 0b011#3] else ap = 0b011#3
  | .read | .fetch | .vector =>
    if priv then ap ∈ [0b001#3, 0b010#3, 0b011#3, 0b101#3, 0b110#3, 0b111#3]
    else ap ∈ [0b010#3, 0b011#3, 0b110#3, 0b111#3]

/-- What bits of a word read from MPU_RBAR are fixed by region `r` and region number `n` (R127): VALID reads 0, REGION
reads the number, a stored zero reads 0, and a bit of ADDR reads as stored. A stored one below N, or of unknown N, and
every bit of an Unknown base are draws. -/
def RbarShows (r : Region) (n : Nat) (w : Word) : Prop :=
  w.getLsbD 4 = false ∧ w.toNat % 16 = n % 16 ∧
    ∀ b, r.base = some b → ∀ i, i < 27 →
      (b.getLsbD i = false → w.getLsbD (i + 5) = false) ∧
        (∀ t, r.attr = some t → sizeLog t.size ≤ i + 5 → w.getLsbD (i + 5) = b.getLsbD i)

/-- Everything a check leaves alone: the parameters, the configuration, the windows, the bookkeeping and the issued
operations. -/
abbrev CheckFrame (s t : State) : Prop :=
  t.impl = s.impl ∧ t.cfg = s.cfg ∧ t.winData = s.winData ∧ t.winFetch = s.winFetch ∧ t.dsbDone = s.dsbDone ∧
    t.depth = s.depth ∧ t.inHandlerOnly = s.inHandlerOnly ∧ t.pending = s.pending

/-- The outcome of a check with verdict `v`: permitted and faulting accesses complete with the verdict as the reply and
`log` as the access log, an unpredictable one is refused (R64, R160). -/
def Concludes (s : State) (v : Verdict) (log : List Access) (res : Result) : Prop :=
  match v with
  | .permit m => ∃ t, res = .next t ∧ t.reply = .permit m ∧ t.accLog = log ∧ CheckFrame s t
  | .memManage a k => ∃ t, res = .next t ∧ t.reply = .memManage a k ∧ t.accLog = log ∧ CheckFrame s t
  | .unpredictable r => res = .refused (.unpredictable r)

/-- The access log after a data access (R64). -/
abbrev logAfter (s : State) (a more : Word) (k : Kind) (priv negprio : Bool) (v : Verdict) : List Access :=
  s.accLog ++ [{ addr := a, more := more, kind := k, priv := priv, negprio := negprio, verdict := v }]

/-- Carrying out a list of operations one after another, while each has a next state. -/
def runOps : List Instr → State → Option State
  | [], s => some s
  | i :: is, s =>
    match exec i s with
    | .next t => runOps is t
    | .fault _ => none
    | .refused _ => none

end Sys2Proof.Machine
end

