-- ==== Sys2Proof/Certificates/Slice0/Obligations.lean ====
section
/-! DEFINITION. The statements for the provers, from the spec's numbered rules. Names in full; each docstring says
which rule a statement formalises. "The model's choice" marks a clause that rests on a log entry. -/

open Sys2Proof Sys2Proof.Machine

/-! ### Reset -/

/-- R32, R34 and the values of R31: the machine right after reset. -/
def Obligations.ResetState : Prop :=
  State.reset.cfg.ctrl = { privdefena := false, hfnmena := false, enable := false } ∧
    State.reset.cfg.rnr = none ∧
    State.reset.cfg.region.length = State.reset.impl.nregions.count ∧
    (∀ r ∈ State.reset.cfg.region, r.base = none ∧ r.attr = none ∧ r.enable = false) ∧
    State.reset.winData = [State.reset.cfg] ∧ State.reset.winFetch = [State.reset.cfg] ∧
    State.reset.accLog = [] ∧ State.reset.dsbDone = true ∧ State.reset.depth = 0 ∧
    State.reset.inHandlerOnly = true

/-- R230: the reset operation, from every state. -/
def Obligations.ResetOperation : Prop :=
  ∀ s : State, ∃ t, exec .reset s = .next t ∧
    t.cfg.ctrl = { privdefena := false, hfnmena := false, enable := false } ∧ t.cfg.rnr = none ∧
    t.cfg.region.length = s.impl.nregions.count ∧
    (∀ r ∈ t.cfg.region, r.base = none ∧ r.attr = none ∧ r.enable = false) ∧
    t.winData = [t.cfg] ∧ t.winFetch = [t.cfg] ∧ t.accLog = [] ∧ t.dsbDone = true ∧ t.depth = 0 ∧
    t.inHandlerOnly = true ∧ t.reply = .ok ∧ t.impl = s.impl

/-- The invariant holds after reset. -/
def Obligations.ResetMeetsInvariant : Prop := State.reset.Inv

/-! ### The invariant -/

/-- Every step keeps the invariant: legal configurations (R20, R22, R23, R33), windows that are sets and hold the
current configuration (R64), a data window inside the fetch window, and the current configuration alone in the data
window while no change has followed a DSB (R65). -/
def Obligations.StepKeepsInvariant : Prop :=
  ∀ s t : State, s.Inv → step s = .next t → t.Inv

/-! ### Encoding -/

/-- Decoding an encoded well-formed operation gives it back, with every operand at every value. -/
def Obligations.DecodeEncode : Prop :=
  ∀ i : Instr, i.wellFormed = true → decode (encode i) = .instr i

/-- Each packet has one meaning: what a packet decodes to is well-formed and encodes to that packet. -/
def Obligations.EncodeDecode : Prop :=
  ∀ (p : Packet) (i : Instr), decode p = .instr i → i.wellFormed = true ∧ encode i = p

/-- A step carries out the decoded operation: with none issued nothing happens, and otherwise the first packet of the
oldest burst is decoded and carried out, the rest of the burst following it unless the operation faulted (R143). How a
program comes to run is the model's choice (log 1). -/
def Obligations.StepRunsDecoded : Prop :=
  (∀ s : State, s.pending = [] → step s = .next s) ∧
    ∀ (s : State) (p : Packet) (rest : List Packet) (bs : List Burst) (i : Instr),
      s.pending = { head := p, rest := rest } :: bs → decode p = .instr i →
      (rest = [] → step s = exec i { s with pending := bs }) ∧
        (∀ q qs t, rest = q :: qs → exec i { s with pending := bs } = .next t →
          step s = .next
            (if t.reply.isFault = true then t
            else { t with pending := { head := q, rest := qs } :: t.pending })) ∧
        (∀ f, exec i { s with pending := bs } = .fault f → step s = .fault f) ∧
        (∀ r, exec i { s with pending := bs } = .refused r → step s = .refused r)

/-- R81: the address of a register selects it. A privileged word read of each of three registers, a privileged word
write of 0x130B001F to MPU_RASR, an unprivileged negprio fetch check, DSB and reset, in the packet layout of log 4, and
an address outside the block. -/
def Obligations.DecodedWords : Prop :=
  decode { addr := 0xE000ED90#32, ctrl := 0#32, data := 0#32 } =
      .instr (.mpuTypeRead 0xE000ED90#32 .word true) ∧
    decode { addr := 0xE000ED98#32, ctrl := 0#32, data := 0#32 } =
      .instr (.mpuRnrRead 0xE000ED98#32 .word true) ∧
    decode { addr := 0xE000EDB8#32, ctrl := 0#32, data := 0#32 } =
      .instr (.mpuRasrA3Read 0xE000EDB8#32 .word true) ∧
    decode { addr := 0xE000EDA0#32, ctrl := 0b001000#32, data := 0x130B001F#32 } =
      .instr (.mpuRasrWrite 0xE000EDA0#32 .word true 0x130B001F#32) ∧
    decode { addr := 0x20008000#32, ctrl := 0b101101#32, data := 3#32 } =
      .instr (.checkFetch 0x20008000#32 3#32 false true) ∧
    decode { addr := 0#32, ctrl := 0b000010#32, data := 0#32 } = .instr .evtDsb ∧
    decode { addr := 0#32, ctrl := 0b000011#32, data := 0#32 } = .instr .reset ∧
    decode { addr := 0xE000EDBC#32, ctrl := 0#32, data := 0#32 } = .rejected .notAnMpuRegister

/-- R86: no bit of MPU_RASR is dropped. Every field is read back from the word it is packed into, and a word whose
reserved bits are 0 is the packing of its fields. -/
def Obligations.RasrWordRoundTrip : Prop :=
  (∀ (t : Attr) (e : Bool), attrOfRasr (rasrWord t e) = t ∧ enableOfRasr (rasrWord t e) = e ∧
      rasrWord t e &&& rasrReserved = 0#32) ∧
    ∀ d : Word, d &&& rasrReserved = 0#32 → rasrWord (attrOfRasr d) (enableOfRasr d) = d

/-- R83, R84, R85: the same of MPU_CTRL, MPU_RNR and MPU_RBAR (whose VALID bit reads 0 and whose REGION is the region
number). -/
def Obligations.RegisterWordsRoundTrip : Prop :=
  (∀ c : Ctrl, ctrlOfWord (ctrlRegWord c) = c ∧ ctrlRegWord c &&& ctrlReserved = 0#32) ∧
    (∀ d : Word, d &&& ctrlReserved = 0#32 → ctrlRegWord (ctrlOfWord d) = d) ∧
    (∀ n : BitVec 8, regionOfRnr (rnrWord n) = n ∧ rnrWord n &&& rnrReserved = 0#32) ∧
    (∀ d : Word, d &&& rnrReserved = 0#32 → rnrWord (regionOfRnr d) = d) ∧
    ∀ (b : BitVec 27) (n : Nat), baseOfRbar (rbarWord b n) = b ∧ validOfRbar (rbarWord b n) = false ∧
      (regionOfRbar (rbarWord b n)).toNat = n % 16

/-! ### Register reads and writes -/

/-- R120, R202: the conditions of every register access, over all eleven registers and both directions: first size and
alignment, then privilege (a fault that changes no state and returns no value), then R144's refusal for every operation
but the read of MPU_TYPE; and the MPU's own check permits reads and writes of the register block in every
configuration. -/
def Obligations.RegisterAccess : Prop :=
  ∀ (r : Reg) (s : State) (addr : Word) (size : Size) (priv : Bool) (data : Word),
    RegPreRule s addr size priv (exec (readOf r addr size priv) s) ∧
      RegPreRule s addr size priv (exec (writeOf r addr size priv data) s) ∧
      (s.impl.nregions = .absent → Accepted addr size priv →
        (r ≠ .type → exec (readOf r addr size priv) s = .refused (.unpredictable .mpuAbsent)) ∧
          exec (writeOf r addr size priv data) s = .refused (.unpredictable .mpuAbsent)) ∧
      (r.holds addr = true → ∀ (c : Cfg) (negprio : Bool),
        check s.params c addr .read priv negprio = .permit .stronglyOrdered ∧
          check s.params c addr .write priv negprio = .permit .stronglyOrdered)

/-- R54, R27: a register read after a write sees it, for every writable register and, of MPU_RBAR and MPU_RASR, through
any pair of the four addresses. MPU_CTRL, MPU_RNR and MPU_RASR read back the word written without its reserved bits.
MPU_RBAR reads back the number of the region written, VALID 0, the written zeros, and the written ADDR bits (at and above
the region's N); and MPU_RNR reads REGION after a VALID = 1 write of MPU_RBAR (R125's example). -/
def Obligations.WriteReadsBack : Prop :=
  ∀ (s t : State) (addr addr' : Word) (data : Word), addr'.toNat % 4 = 0 →
    (exec (.mpuCtrlWrite addr .word true data) s = .next t →
      ∃ u, exec (.mpuCtrlRead addr' .word true) t = .next u ∧ u.reply = .value (data &&& 0x00000007#32)) ∧
    (exec (.mpuRnrWrite addr .word true data) s = .next t →
      ∃ u, exec (.mpuRnrRead addr' .word true) t = .next u ∧ u.reply = .value (data &&& 0x000000FF#32)) ∧
    (∀ p ∈ rbarWrites, data.getLsbD 4 = true → exec (p.2 addr .word true data) s = .next t →
      ∃ u, exec (.mpuRnrRead addr' .word true) t = .next u ∧ u.reply = .value (data &&& 0x0000000F#32)) ∧
    (s.cfg.region.length = s.impl.nregions.count → ∀ p ∈ rbarWrites, ∀ q ∈ rbarReads, ∀ n : Nat,
      (if data.getLsbD 4 = true then some (data.toNat % 16) else s.cfg.rnr.map BitVec.toNat) = some n →
      exec (p.2 addr .word true data) s = .next t →
        ∃ u w, exec (q.2 addr' .word true) t = .next u ∧ u.reply = .value w ∧
          w.getLsbD 4 = false ∧ w.toNat % 16 = n % 16 ∧
          ∀ i, 5 ≤ i → i < 32 →
            (data.getLsbD i = false → w.getLsbD i = false) ∧
            ∀ a, (s.cfg.regionAt n).attr = some a → sizeLog a.size ≤ i → w.getLsbD i = data.getLsbD i) ∧
    (s.cfg.region.length = s.impl.nregions.count → ∀ p ∈ rasrWrites, ∀ q ∈ rasrReads,
      exec (p.2 addr .word true data) s = .next t →
        ∃ u, exec (q.2 addr' .word true) t = .next u ∧ u.reply = .value (data &&& 0x173FFF3F#32))

/-- R121: MPU_TYPE.read, on 8, 16 or no regions. -/
def Obligations.MpuTypeRead : Prop :=
  ∀ (s : State) (addr : Word) (size : Size) (priv : Bool),
    RegPreRule s addr size priv (exec (.mpuTypeRead addr size priv) s) ∧
      (Accepted addr size priv →
        ∃ t w, exec (.mpuTypeRead addr size priv) s = .next t ∧ t.reply = .value w ∧
          w.toNat = 256 * s.impl.nregions.count ∧ ReadFrame s t ∧ t.draws = s.draws)

/-- R122: MPU_TYPE.write is refused whatever the data, and before that for the reasons of every register access. -/
def Obligations.MpuTypeWriteRefused : Prop :=
  ∀ (s : State) (addr : Word) (size : Size) (priv : Bool) (data : Word),
    RegPrePresentRule s addr size priv (exec (.mpuTypeWrite addr size priv data) s) ∧
      (Accepted addr size priv → s.impl.nregions ≠ .absent →
        exec (.mpuTypeWrite addr size priv data) s = .refused (.unpredictable .writeToReadOnly))

/-- R123: MPU_CTRL.read returns the three bits, and 0 above them. -/
def Obligations.MpuCtrlRead : Prop :=
  ∀ (s : State) (addr : Word) (size : Size) (priv : Bool),
    RegPrePresentRule s addr size priv (exec (.mpuCtrlRead addr size priv) s) ∧
      (Accepted addr size priv → s.impl.nregions ≠ .absent →
        ∃ t w, exec (.mpuCtrlRead addr size priv) s = .next t ∧ t.reply = .value w ∧
          w.getLsbD 2 = s.cfg.ctrl.privdefena ∧ w.getLsbD 1 = s.cfg.ctrl.hfnmena ∧
          w.getLsbD 0 = s.cfg.ctrl.enable ∧ w.toNat < 8 ∧ ReadFrame s t ∧ t.draws = s.draws)

/-- R124: MPU_CTRL.write: reserved bits, HFNMENA without ENABLE, and otherwise the three bits, with R65. -/
def Obligations.MpuCtrlWrite : Prop :=
  ∀ (s : State) (addr : Word) (size : Size) (priv : Bool) (data : Word),
    RegPrePresentRule s addr size priv (exec (.mpuCtrlWrite addr size priv data) s) ∧
      (Accepted addr size priv → s.impl.nregions ≠ .absent →
        (s.impl.reservedPolicy = .refuse → 8 ≤ data.toNat →
          exec (.mpuCtrlWrite addr size priv data) s = .refused (.unpredictable .reservedBits)) ∧
        (s.impl.reservedPolicy = .ignore ∨ data.toNat < 8 →
          (data.getLsbD 0 = false → data.getLsbD 1 = true →
            exec (.mpuCtrlWrite addr size priv data) s = .refused (.unpredictable .hfnmenaWithoutEnable)) ∧
          (data.getLsbD 0 = true ∨ data.getLsbD 1 = false →
            Writes s
              { s.cfg with
                ctrl :=
                  { privdefena := data.getLsbD 2, hfnmena := data.getLsbD 1, enable := data.getLsbD 0 } }
              (exec (.mpuCtrlWrite addr size priv data) s))))

/-- R125: MPU_RNR.read, while the region number is known and while it is Unknown (a fresh draw of 8 bits). -/
def Obligations.MpuRnrRead : Prop :=
  ∀ (s : State) (addr : Word) (size : Size) (priv : Bool),
    RegPrePresentRule s addr size priv (exec (.mpuRnrRead addr size priv) s) ∧
      (Accepted addr size priv → s.impl.nregions ≠ .absent →
        ∃ t w, exec (.mpuRnrRead addr size priv) s = .next t ∧ t.reply = .value w ∧ ReadFrame s t ∧
          (∀ n, s.cfg.rnr = some n → w.toNat = n.toNat) ∧
          (s.cfg.rnr = none → w.toNat = (Config.freeRnr s.draws).toNat ∧ t.draws = s.draws + 1))

/-- R126: MPU_RNR.write: reserved bits, a number of no region, and otherwise the region number alone, with R65. -/
def Obligations.MpuRnrWrite : Prop :=
  ∀ (s : State) (addr : Word) (size : Size) (priv : Bool) (data : Word),
    RegPrePresentRule s addr size priv (exec (.mpuRnrWrite addr size priv data) s) ∧
      (Accepted addr size priv → s.impl.nregions ≠ .absent →
        (s.impl.reservedPolicy = .refuse → 256 ≤ data.toNat →
          exec (.mpuRnrWrite addr size priv data) s = .refused (.unpredictable .reservedBits)) ∧
        (s.impl.reservedPolicy = .ignore ∨ data.toNat < 256 →
          (s.impl.nregions.count ≤ data.toNat % 256 →
            exec (.mpuRnrWrite addr size priv data) s = .refused (.unpredictable .regionNumber)) ∧
          (data.toNat % 256 < s.impl.nregions.count →
            Writes s { s.cfg with rnr := some (BitVec.ofNat 8 data.toNat) }
              (exec (.mpuRnrWrite addr size priv data) s))))

/-- R127 and the aliases R131, R135, R139: MPU_RBAR.read at its four addresses, with a known region number and with an
Unknown one (a drawn region number). -/
def Obligations.MpuRbarRead : Prop :=
  ∀ p ∈ rbarReads, ∀ (s : State) (addr : Word) (size : Size) (priv : Bool),
    RegPrePresentRule s addr size priv (exec (p.2 addr size priv) s) ∧
      (Accepted addr size priv → s.impl.nregions ≠ .absent →
        (∀ n, s.cfg.rnr = some n → n.toNat < s.impl.nregions.count →
          ∃ t w, exec (p.2 addr size priv) s = .next t ∧ t.reply = .value w ∧ ReadFrame s t ∧
            RbarShows (s.cfg.regionAt n.toNat) n.toNat w) ∧
        (s.cfg.rnr = none →
          ∃ t w n, exec (p.2 addr size priv) s = .next t ∧ t.reply = .value w ∧ ReadFrame s t ∧
            n < s.impl.nregions.count ∧ RbarShows (s.cfg.regionAt n) n w))

/-- R128 and the aliases R132, R136, R140: MPU_RBAR.write at its four addresses, with VALID 1 and with VALID 0. -/
def Obligations.MpuRbarWrite : Prop :=
  ∀ p ∈ rbarWrites, ∀ (s : State) (addr : Word) (size : Size) (priv : Bool) (data : Word),
    RegPrePresentRule s addr size priv (exec (p.2 addr size priv data) s) ∧
      (Accepted addr size priv → s.impl.nregions ≠ .absent →
        (data.getLsbD 4 = true →
          (s.impl.nregions.count ≤ data.toNat % 16 →
            exec (p.2 addr size priv data) s = .refused (.unpredictable .regionNumber)) ∧
          (data.toNat % 16 < s.impl.nregions.count →
            Writes s
              { s.cfg with
                rnr := some (BitVec.ofNat 8 (data.toNat % 16))
                region := s.cfg.region.set (data.toNat % 16)
                  { s.cfg.regionAt (data.toNat % 16) with base := some (BitVec.ofNat 27 (data.toNat / 32)) } }
              (exec (p.2 addr size priv data) s))) ∧
        (data.getLsbD 4 = false →
          (s.cfg.rnr = none → exec (p.2 addr size priv data) s = .refused (.unpredictable .unknownState)) ∧
          (∀ n, s.cfg.rnr = some n → n.toNat < s.impl.nregions.count →
            Writes s
              { s.cfg with
                region := s.cfg.region.set n.toNat
                  { s.cfg.regionAt n.toNat with base := some (BitVec.ofNat 27 (data.toNat / 32)) } }
              (exec (p.2 addr size priv data) s))))

/-- R129 and the aliases R133, R137, R141: MPU_RASR.read at its four addresses: ENABLE always, every other field as
stored or a draw, reserved bits 0. -/
def Obligations.MpuRasrRead : Prop :=
  ∀ p ∈ rasrReads, ∀ (s : State) (addr : Word) (size : Size) (priv : Bool),
    RegPrePresentRule s addr size priv (exec (p.2 addr size priv) s) ∧
      (Accepted addr size priv → s.impl.nregions ≠ .absent →
        (∀ n, s.cfg.rnr = some n → n.toNat < s.impl.nregions.count →
          ∃ t w, exec (p.2 addr size priv) s = .next t ∧ t.reply = .value w ∧ ReadFrame s t ∧
            w &&& 0xE8C000C0#32 = 0#32 ∧ w.getLsbD 0 = (s.cfg.regionAt n.toNat).enable ∧
            ∀ a, (s.cfg.regionAt n.toNat).attr = some a → attrOfRasr w = a) ∧
        (s.cfg.rnr = none →
          ∃ t w n, exec (p.2 addr size priv) s = .next t ∧ t.reply = .value w ∧ ReadFrame s t ∧
            n < s.impl.nregions.count ∧ w &&& 0xE8C000C0#32 = 0#32 ∧
            w.getLsbD 0 = (s.cfg.regionAt n).enable ∧
            ∀ a, (s.cfg.regionAt n).attr = some a → attrOfRasr w = a))

/-- R130 and the aliases R134, R138, R142: MPU_RASR.write at its four addresses: reserved bits, an Unknown region
number, and otherwise every attribute field and the enable bit of the selected region in one step. -/
def Obligations.MpuRasrWrite : Prop :=
  ∀ p ∈ rasrWrites, ∀ (s : State) (addr : Word) (size : Size) (priv : Bool) (data : Word),
    RegPrePresentRule s addr size priv (exec (p.2 addr size priv data) s) ∧
      (Accepted addr size priv → s.impl.nregions ≠ .absent →
        (s.impl.reservedPolicy = .refuse → data &&& 0xE8C000C0#32 ≠ 0#32 →
          exec (p.2 addr size priv data) s = .refused (.unpredictable .reservedBits)) ∧
        (s.impl.reservedPolicy = .ignore ∨ data &&& 0xE8C000C0#32 = 0#32 →
          (s.cfg.rnr = none → exec (p.2 addr size priv data) s = .refused (.unpredictable .unknownState)) ∧
          (∀ n, s.cfg.rnr = some n → n.toNat < s.impl.nregions.count →
            Writes s
              { s.cfg with
                region := s.cfg.region.set n.toNat
                  { s.cfg.regionAt n.toNat with
                    attr := some
                      { xn := data.getLsbD 28
                        ap := BitVec.ofNat 3 (data.toNat / 2 ^ 24)
                        tex := BitVec.ofNat 3 (data.toNat / 2 ^ 19)
                        s := data.getLsbD 18
                        c := data.getLsbD 17
                        b := data.getLsbD 16
                        srd := BitVec.ofNat 8 (data.toNat / 2 ^ 8)
                        size := BitVec.ofNat 5 (data.toNat / 2) }
                    enable := data.getLsbD 0 } }
              (exec (p.2 addr size priv data) s))))

/-- The model's choice (log 8): in a state no run reaches, whose MPU_RNR holds the number of no region, the register
operations that would use it stop with a fault of their own. -/
def Obligations.StrayRegionNumberStops : Prop :=
  ∀ (s : State) (n : BitVec 8) (addr : Word) (size : Size) (priv : Bool),
    s.cfg.rnr = some n → s.impl.nregions.count ≤ n.toNat → s.impl.nregions ≠ .absent → Accepted addr size priv →
    (∀ p ∈ rbarReads, exec (p.2 addr size priv) s = .fault (.noSuchRegion n)) ∧
      (∀ p ∈ rasrReads, exec (p.2 addr size priv) s = .fault (.noSuchRegion n)) ∧
      (∀ p ∈ rbarWrites, ∀ data : Word, data.getLsbD 4 = false →
        exec (p.2 addr size priv data) s = .fault (.noSuchRegion n)) ∧
      (∀ p ∈ rasrWrites, ∀ data : Word, data &&& rasrReserved = 0#32 →
        exec (p.2 addr size priv data) s = .fault (.noSuchRegion n))

/-- R65: which logged accesses a new configuration disturbs, and with that when a register write is refused as
`outstanding_transfer`. As R65's bracket says: permitted against fault (either way round) and permitted with different
attributes disturb; permitted with the same attributes does not. The model's reading (log 7): two faults do not, and an
access that would be unpredictable does. The log as a whole is disturbed exactly if one of its entries is. -/
def Obligations.DisturbedAccesses : Prop :=
  (∀ (p : Params) (c : Cfg) (e : Access),
    (∀ m m', judge p c e.addr e.more.toNat e.kind e.priv e.negprio = .permit m → e.verdict = .permit m' →
      (e.changed p c = true ↔ m ≠ m')) ∧
    (∀ m a k, judge p c e.addr e.more.toNat e.kind e.priv e.negprio = .permit m → e.verdict = .memManage a k →
      e.changed p c = true) ∧
    (∀ m a k, judge p c e.addr e.more.toNat e.kind e.priv e.negprio = .memManage a k → e.verdict = .permit m →
      e.changed p c = true) ∧
    (∀ a k a' k', judge p c e.addr e.more.toNat e.kind e.priv e.negprio = .memManage a k →
      e.verdict = .memManage a' k' → e.changed p c = false) ∧
    (∀ r, judge p c e.addr e.more.toNat e.kind e.priv e.negprio = .unpredictable r → e.changed p c = true)) ∧
  ∀ (s : State) (c : Cfg), s.Undisturbed c ↔ ¬ ∃ e ∈ s.accLog, e.changed s.params c = true

/-- R55: a second, equal write of any writable register leaves the state of the first. -/
def Obligations.RepeatedWrite : Prop :=
  ∀ (i : Instr) (s t : State), i.isRegWrite → exec i s = .next t → exec i t = .next t

/-- R24, R55, R124, R126, R128, R130: which part of the configuration a completed write of each register may change.
MPU_TYPE: none. MPU_CTRL: `ctrl`. MPU_RNR: `rnr`. MPU_RBAR at its four addresses: `rnr`, and that only with VALID = 1,
and the base of one region, the one REGION names with VALID = 1 and the one MPU_RNR selects with VALID = 0. MPU_RASR at
its four addresses: the attributes and the enable bit of the region MPU_RNR selects. No write changes the number of
regions. -/
def Obligations.WriteTouchesOneRegion : Prop :=
  ∀ (s t : State) (addr : Word) (size : Size) (priv : Bool) (data : Word),
    (exec (.mpuTypeWrite addr size priv data) s = .next t → t.cfg = s.cfg) ∧
    (exec (.mpuCtrlWrite addr size priv data) s = .next t →
      t.cfg.rnr = s.cfg.rnr ∧ t.cfg.region = s.cfg.region) ∧
    (exec (.mpuRnrWrite addr size priv data) s = .next t →
      t.cfg.ctrl = s.cfg.ctrl ∧ t.cfg.region = s.cfg.region) ∧
    (∀ p ∈ rbarWrites, exec (p.2 addr size priv data) s = .next t →
      t.cfg.ctrl = s.cfg.ctrl ∧ (validOfRbar data = false → t.cfg.rnr = s.cfg.rnr) ∧
      t.cfg.region.length = s.cfg.region.length ∧
      ∀ m : Nat,
        ((if validOfRbar data = true then some (regionOfRbar data).toNat else s.cfg.rnr.map BitVec.toNat) ≠ some m →
          t.cfg.region[m]? = s.cfg.region[m]?) ∧
        (t.cfg.region[m]?).map (fun r => (r.attr, r.enable)) = (s.cfg.region[m]?).map fun r => (r.attr, r.enable)) ∧
    (∀ p ∈ rasrWrites, exec (p.2 addr size priv data) s = .next t →
      t.cfg.ctrl = s.cfg.ctrl ∧ t.cfg.rnr = s.cfg.rnr ∧ t.cfg.region.length = s.cfg.region.length ∧
      ∀ m : Nat,
        (s.cfg.rnr.map BitVec.toNat ≠ some m → t.cfg.region[m]? = s.cfg.region[m]?) ∧
        (t.cfg.region[m]?).map Region.base = (s.cfg.region[m]?).map Region.base)

/-- R143: a store-multiple. Its first word is a write of the register at its address, the rest of its words stay next
in line one word higher, and an unprivileged one stops at its first word with nothing written. -/
def Obligations.StoreMultiple : Prop :=
  (∀ (s t : State) (r : Reg) (w w' : Word) (ws : List Word) (bs : List Burst),
      s.pending = storeMultiple r.addr true w (w' :: ws) :: bs →
      exec (writeOf r r.addr .word true w) { s with pending := bs } = .next t →
      step s = .next { t with pending := storeMultiple (r.addr + 4#32) true w' ws :: bs }) ∧
    ∀ (s : State) (r : Reg) (w : Word) (ws : List Word) (bs : List Burst),
      s.pending = storeMultiple r.addr false w ws :: bs →
      step s = .next { s with pending := bs, reply := .regPriv }

/-! ### Barriers and exception events -/

/-- R69. -/
def Obligations.EvtDsb : Prop :=
  ∀ s : State, exec .evtDsb s =
    .next { s with winData := [s.cfg], accLog := [], dsbDone := true, reply := .ok }

/-- R70. -/
def Obligations.EvtIsb : Prop :=
  ∀ s : State,
    (s.dsbDone = true →
      exec .evtIsb s = .next { s with winFetch := [s.cfg], inHandlerOnly := true, reply := .ok }) ∧
    (s.dsbDone = false → exec .evtIsb s = .next { s with reply := .ok })

/-- R71. -/
def Obligations.EvtExcEntry : Prop :=
  ∀ s : State, exec .evtExcEntry s = .next { s with depth := s.depth + 1, reply := .ok }

/-- R72. -/
def Obligations.EvtExcReturn : Prop :=
  ∀ s : State,
    (1 ≤ s.depth → s.dsbDone = true → s.inHandlerOnly = true →
      exec .evtExcReturn s = .next { s with winFetch := [s.cfg], depth := s.depth - 1, reply := .ok }) ∧
    (s.depth = 0 ∨ s.dsbDone = false ∨ s.inHandlerOnly = false →
      exec .evtExcReturn s = .next { s with depth := s.depth - 1, reply := .ok })

/-- R66, first half: from any state, DSB and then ISB leave only the current configuration in both windows. -/
def Obligations.BarriersSynchronise : Prop :=
  ∀ s : State, ∃ t, runOps [.evtDsb, .evtIsb] s = some t ∧ t.Synchronised ∧ t.cfg = s.cfg

/-- R66, second half: a programming sequence made wholly inside a handler needs no ISB. Whatever register accesses,
checks and barriers follow an exception entry, a DSB and the exception return leave both windows with the current
configuration alone. -/
def Obligations.HandlerSequenceSynchronises : Prop :=
  ∀ (s t : State) (ops : List Instr), s.inHandlerOnly = true →
    (∀ i ∈ ops, i ≠ .evtExcEntry ∧ i ≠ .evtExcReturn ∧ i ≠ .reset) →
    runOps (.evtExcEntry :: ops) s = some t →
    ∃ u, runOps [.evtDsb, .evtExcReturn] t = some u ∧ u.Synchronised ∧ u.cfg = t.cfg ∧ u.depth = s.depth

/-- R65 read over all operations: nothing but DSB and reset takes a configuration out of the data window, and nothing
but ISB, exception return and reset out of the fetch window. -/
def Obligations.WindowsShrinkOnlyAtBarriers : Prop :=
  ∀ (i : Instr) (s t : State), exec i s = .next t →
    (i ≠ .evtDsb → i ≠ .reset → ∀ c ∈ s.winData, c ∈ t.winData) ∧
      (i ≠ .evtIsb → i ≠ .evtExcReturn → i ≠ .reset → ∀ c ∈ s.winFetch, c ∈ t.winFetch)

/-! ### The access check -/

/-- R64, R174, R175, R176: a data access is judged by a member of the data window and logged, a fetch by a member of
the fetch window; an access of several bytes is judged as R180 says, under that one configuration. -/
def Obligations.CheckUsesWindow : Prop :=
  ∀ (s : State) (a more : Word) (priv negprio : Bool),
    (s.cfg ∈ s.winData → ∃ c ∈ s.winData,
      Concludes s (judge s.params c a more.toNat .read priv negprio)
        (logAfter s a more .read priv negprio (judge s.params c a more.toNat .read priv negprio))
        (exec (.checkRead a more priv negprio) s)) ∧
    (s.cfg ∈ s.winData → ∃ c ∈ s.winData,
      Concludes s (judge s.params c a more.toNat .write priv negprio)
        (logAfter s a more .write priv negprio (judge s.params c a more.toNat .write priv negprio))
        (exec (.checkWrite a more priv negprio) s)) ∧
    (s.cfg ∈ s.winFetch → ∃ c ∈ s.winFetch,
      Concludes s (judge s.params c a more.toNat .fetch priv negprio) s.accLog
        (exec (.checkFetch a more priv negprio) s))

/-- R167, R170, R171, R172 on the machine: with the MPU in effect and synchronised windows, the highest-numbered region
an address hits decides. A read, a write or a fetch that its AP (and, for a fetch, its XN) allows is permitted with its
attributes, whatever lower-numbered regions say; any other takes the MemManage fault. -/
def Obligations.RegionDecides : Prop :=
  ∀ (s : State) (a : Word) (priv negprio : Bool) (n : Nat) (r : Region) (t : Attr) (m : MemAttr),
    s.Synchronised → InEffect s.params s.cfg a negprio → s.cfg.WellFormed s.impl.basePolicy →
    Decides s.cfg a n r → r.attr = some t → attrOf Config.impdefAttr t.tex t.c t.b t.s = some m →
    ((allowedByAP t.ap priv .read →
        ∃ u, exec (.checkRead a 0#32 priv negprio) s = .next u ∧ u.reply = .permit m ∧ CheckFrame s u) ∧
      (¬ allowedByAP t.ap priv .read →
        ∃ u, exec (.checkRead a 0#32 priv negprio) s = .next u ∧ u.reply = .memManage a .read ∧ CheckFrame s u)) ∧
    ((allowedByAP t.ap priv .write →
        ∃ u, exec (.checkWrite a 0#32 priv negprio) s = .next u ∧ u.reply = .permit m ∧ CheckFrame s u) ∧
      (¬ allowedByAP t.ap priv .write →
        ∃ u, exec (.checkWrite a 0#32 priv negprio) s = .next u ∧ u.reply = .memManage a .write ∧
          CheckFrame s u)) ∧
    ((allowedByAP t.ap priv .fetch → t.xn = false →
        ∃ u, exec (.checkFetch a 0#32 priv negprio) s = .next u ∧ u.reply = .permit m ∧ CheckFrame s u) ∧
      (¬ allowedByAP t.ap priv .fetch ∨ t.xn = true →
        ∃ u, exec (.checkFetch a 0#32 priv negprio) s = .next u ∧ u.reply = .memManage a .fetch ∧
          CheckFrame s u))

/-- R163(a): in the System Control Space every configuration permits reads and writes of either privilege level as
Strongly-ordered, and none permits a fetch. -/
def Obligations.SystemControlSpace : Prop :=
  ∀ (s : State) (a : Word) (priv negprio : Bool), inSCS s.impl.scs a = true →
    (∃ u, exec (.checkRead a 0#32 priv negprio) s = .next u ∧ u.reply = .permit .stronglyOrdered ∧
      CheckFrame s u) ∧
    (∃ u, exec (.checkWrite a 0#32 priv negprio) s = .next u ∧ u.reply = .permit .stronglyOrdered ∧
      CheckFrame s u) ∧
    (∃ u, exec (.checkFetch a 0#32 priv negprio) s = .next u ∧ u.reply = .memManage a .fetch ∧ CheckFrame s u)

/-- R177: a vector read is permitted with the default memory map's attributes whatever the configuration, and changes
nothing. -/
def Obligations.CheckVector : Prop :=
  ∀ (s : State) (a : Word) (priv negprio : Bool),
    exec (.checkVector a priv negprio) s = .next { s with reply := .permit (Config.defaultMap a).attr }

/-- R161, R178: with the MPU absent or disabled in every configuration of the windows, the default memory map judges
every access outside the System Control Space, at both privilege levels and whatever the regions hold. -/
def Obligations.MpuDisabled : Prop :=
  ∀ (s : State) (a : Word) (priv negprio : Bool),
    s.cfg ∈ s.winData → s.cfg ∈ s.winFetch →
    (s.impl.nregions = .absent ∨
      (∀ c ∈ s.winData, c.ctrl.enable = false) ∧ ∀ c ∈ s.winFetch, c.ctrl.enable = false) →
    inSCS s.impl.scs a = false →
    (∃ u, exec (.checkRead a 0#32 priv negprio) s = .next u ∧ u.reply = .permit (Config.defaultMap a).attr ∧
      CheckFrame s u) ∧
    (∃ u, exec (.checkWrite a 0#32 priv negprio) s = .next u ∧ u.reply = .permit (Config.defaultMap a).attr ∧
      CheckFrame s u) ∧
    ∃ u, exec (.checkFetch a 0#32 priv negprio) s = .next u ∧
      u.reply = (if (Config.defaultMap a).xn = true then .memManage a .fetch else .permit (Config.defaultMap a).attr) ∧
      CheckFrame s u

/-- R162: at priority -1 or -2 with HFNMENA = 0 the default memory map judges; with HFNMENA = 1 the priority makes no
difference, and at other priorities HFNMENA makes none. -/
def Obligations.Hfnmena : Prop :=
  ∀ (p : Params) (c : Cfg) (a : Word) (k : Kind) (priv : Bool),
    (c.ctrl.enable = true → c.ctrl.hfnmena = false → k ≠ .vector → p.inSCS a = false →
      check p c a k priv true = defaultVerdict p a k) ∧
    (c.ctrl.hfnmena = true → check p c a k priv true = check p c a k priv false) ∧
    (∀ h : Bool, check p { c with ctrl := { c.ctrl with hfnmena := h } } a k priv false =
      check p c a k priv false)

/-- R164: with the MPU in effect and some region of the judging configuration not well-formed, every check of one byte
is refused, whatever the address. -/
def Obligations.IllFormedRegionRefuses : Prop :=
  ∀ (s : State) (a : Word) (priv negprio : Bool),
    s.Synchronised → InEffect s.params s.cfg a negprio → ¬ s.cfg.WellFormed s.impl.basePolicy →
    exec (.checkRead a 0#32 priv negprio) s = .refused (.unpredictable .illFormedRegion) ∧
      exec (.checkWrite a 0#32 priv negprio) s = .refused (.unpredictable .illFormedRegion) ∧
      exec (.checkFetch a 0#32 priv negprio) s = .refused (.unpredictable .illFormedRegion)

/-- R36: a region is well-formed exactly if it is disabled or its attributes and base are known, SIZE is at least 4, SRD
is 0 for SIZE below 7, AP is not 0b100, TEX, C and B are none of the reserved encodings (TEX = 0b011 among them), and,
under BASE_POLICY = `refuse`, the stored base bits below N = SIZE + 1 are 0 (stored bit i is address bit i + 5). -/
def Obligations.WellFormedRegions : Prop :=
  ∀ (bp : BasePolicy) (r : Region),
    r.wellFormed bp = true ↔
      r.enable = false ∨
        ∃ (t : Attr) (b : BitVec 27), r.attr = some t ∧ r.base = some b ∧
          4 ≤ t.size.toNat ∧ (t.size.toNat < 7 → t.srd = 0#8) ∧ t.ap ≠ 0b100#3 ∧
          ¬ (t.tex = 0b001#3 ∧ t.c = false ∧ t.b = true) ∧
          ¬ (t.tex = 0b010#3 ∧ t.c = false ∧ t.b = true) ∧
          ¬ (t.tex = 0b010#3 ∧ t.c = true) ∧
          t.tex ≠ 0b011#3 ∧
          (bp = .refuse → ∀ i, i + 5 < t.size.toNat + 1 → b.getLsbD i = false)

/-- R167: `decidingRegion` finds the highest-numbered region an address hits, and none only if it hits none. -/
def Obligations.HighestRegionDecides : Prop :=
  ∀ (c : Cfg) (a : Word),
    (∀ r, decidingRegion a c.region = some r ↔ ∃ n, Decides c a n r) ∧
      (decidingRegion a c.region = none ↔ ∀ r ∈ c.region, r.hits a = false)

/-- R165, R87: a region covers the 2^N bytes from its base on, its base is a multiple of its size, and its range does
not wrap. -/
def Obligations.RegionRange : Prop :=
  ∀ (b : BitVec 27) (size : BitVec 5) (a : Word), 4 ≤ size.toNat →
    (inRange b size a = true ↔ covers b size a) ∧ (baseAddr b size).toNat % regionBytes size = 0 ∧
      (baseAddr b size).toNat + regionBytes size ≤ 2 ^ 32 ∧
      (baseAligned b size = true → (baseAddr b size).toNat = 32 * b.toNat)

/-- R166, R92: an enabled region is hit at the addresses of its range that lie in no disabled subregion, the
subregions being the eight equal parts of the range, and SRD is not consulted below 256 bytes. -/
def Obligations.Subregions : Prop :=
  ∀ (b : BitVec 27) (t : Attr) (a : Word), 4 ≤ t.size.toNat →
    ((Region.hits { base := some b, attr := some t, enable := true } a = true ↔
      covers b t.size a ∧
        (7 ≤ t.size.toNat →
          t.srd.getLsbD ((a.toNat - (baseAddr b t.size).toNat) / (regionBytes t.size / 8)) = false)) ∧
      Region.hits { base := some b, attr := some t, enable := false } a = false)

/-- R88: the region sizes of Table 90, and the formula for all 28 permitted values. -/
def Obligations.RegionSizes : Prop :=
  (regionBytes 4#5 = 32 ∧ regionBytes 9#5 = 1024 ∧ regionBytes 19#5 = 1048576 ∧
      regionBytes 29#5 = 1073741824 ∧ regionBytes 31#5 = 4294967296) ∧
    ∀ size : BitVec 5, regionBytes size = 2 ^ (size.toNat + 1) ∧ sizeLog size = size.toNat + 1

/-- R89, R90: Table 91 and Table 92, the reserved encodings and TEX = 0b011 among them. -/
def Obligations.AttributeTable : Prop :=
  ∀ (impdef : MemAttr) (s : Bool),
    attrOf impdef 0b000#3 false false s = some .stronglyOrdered ∧
      attrOf impdef 0b000#3 false true s = some (.device true) ∧
      attrOf impdef 0b000#3 true false s = some (.normal s .writeThroughNoWA .writeThroughNoWA) ∧
      attrOf impdef 0b000#3 true true s = some (.normal s .writeBackNoWA .writeBackNoWA) ∧
      attrOf impdef 0b001#3 false false s = some (.normal s .nonCacheable .nonCacheable) ∧
      attrOf impdef 0b001#3 false true s = none ∧
      attrOf impdef 0b001#3 true false s = some impdef ∧
      attrOf impdef 0b001#3 true true s = some (.normal s .writeBackWRA .writeBackWRA) ∧
      attrOf impdef 0b010#3 false false s = some (.device false) ∧
      attrOf impdef 0b010#3 false true s = none ∧
      (∀ b, attrOf impdef 0b010#3 true b s = none) ∧
      (∀ c b, attrOf impdef 0b011#3 c b s = none) ∧
      (∀ (bb : BitVec 2) (c b : Bool),
        attrOf impdef (1#1 ++ bb) c b s =
          some (.normal s (policy (BitVec.ofBool c ++ BitVec.ofBool b)) (policy bb))) ∧
      policy 0b00#2 = .nonCacheable ∧ policy 0b01#2 = .writeBackWRA ∧ policy 0b10#2 = .writeThroughNoWA ∧
      policy 0b11#2 = .writeBackNoWA

/-- R168, R169: with the MPU in effect and no region hit, the background region serves privileged accesses when
PRIVDEFENA is 1, and every other access faults. -/
def Obligations.BackgroundRegion : Prop :=
  ∀ (p : Params) (c : Cfg) (a : Word) (k : Kind) (priv negprio : Bool),
    k ≠ .vector → InEffect p c a negprio → c.WellFormed p.basePolicy → (∀ r ∈ c.region, r.hits a = false) →
    (c.ctrl.privdefena = true → priv = true → check p c a k priv negprio = defaultVerdict p a k) ∧
      (c.ctrl.privdefena = false ∨ priv = false → check p c a k priv negprio = .memManage a k)

/-- R179: the MPU enabled with no region enabled. With PRIVDEFENA = 0 nothing outside the System Control Space is
accessible; with PRIVDEFENA = 1 only privileged software can operate. -/
def Obligations.NoRegionEnabled : Prop :=
  ∀ (p : Params) (c : Cfg) (a : Word) (k : Kind) (priv negprio : Bool),
    k ≠ .vector → InEffect p c a negprio → (∀ r ∈ c.region, r.enable = false) →
    check p c a k priv negprio =
      if c.ctrl.privdefena = true ∧ priv = true then defaultVerdict p a k else .memManage a k

/-- R181: a disabled region takes no part in any check. Two configurations that differ only in what their disabled
regions hold give every access the same verdict. -/
def Obligations.DisabledRegionsDoNotMatter : Prop :=
  ∀ (p : Params) (c c' : Cfg) (a : Word) (k : Kind) (priv negprio : Bool),
    c.ctrl = c'.ctrl →
    c.region.length = c'.region.length →
    (∀ (n : Nat) (r r' : Region), c.region[n]? = some r → c'.region[n]? = some r' →
      r = r' ∨ r.enable = false ∧ r'.enable = false) →
    check p c a k priv negprio = check p c' a k priv negprio

/-- R209: the privileged level may do whatever the unprivileged level may: an access of one byte that is permitted
unprivileged is permitted privileged, with the same attributes. -/
def Obligations.PrivilegedAtLeastUnprivileged : Prop :=
  ∀ (p : Params) (c : Cfg) (a : Word) (k : Kind) (negprio : Bool) (m : MemAttr),
    check p c a k false negprio = .permit m → check p c a k true negprio = .permit m

/-- R180: an access of several bytes. An unpredictable byte makes it unpredictable, else it faults for its faulting byte
of the lowest address (which need not be the first to fault, where the access passes 0xFFFFFFFF), else it is permitted if
all its bytes get the same attributes and `straddle` if they do not. -/
def Obligations.SeveralBytes : Prop :=
  ∀ (p : Params) (c : Cfg) (a : Word) (more : Nat) (k : Kind) (priv negprio : Bool),
    ((∃ i ≤ more, (check p c (a + BitVec.ofNat 32 i) k priv negprio).reason?.isSome = true) →
      ∃ i r, i ≤ more ∧ check p c (a + BitVec.ofNat 32 i) k priv negprio = .unpredictable r ∧
        judge p c a more k priv negprio = .unpredictable r) ∧
    ((∀ i ≤ more, (check p c (a + BitVec.ofNat 32 i) k priv negprio).reason? = none) →
      ∀ i b k', i ≤ more → check p c (a + BitVec.ofNat 32 i) k priv negprio = .memManage b k' →
        (∀ j b' l, j ≤ more → check p c (a + BitVec.ofNat 32 j) k priv negprio = .memManage b' l →
          b.toNat ≤ b'.toNat) →
        b = a + BitVec.ofNat 32 i ∧ k' = k ∧ judge p c a more k priv negprio = .memManage b k') ∧
    (∀ m, (∀ i ≤ more, check p c (a + BitVec.ofNat 32 i) k priv negprio = .permit m) →
      judge p c a more k priv negprio = .permit m) ∧
    ((∀ i ≤ more, ∃ m, check p c (a + BitVec.ofNat 32 i) k priv negprio = .permit m) →
      (∃ i ≤ more, check p c (a + BitVec.ofNat 32 i) k priv negprio ≠ check p c a k priv negprio) →
      judge p c a more k priv negprio = .unpredictable .straddle)

/-! ### Whole-machine rules -/

/-- R200: the one exception the MPU causes comes from the checks alone. A MemManage reply is that of a read, write or
fetch check, with that kind and an address of the access. -/
def Obligations.MemManageOnlyFromChecks : Prop :=
  ∀ (i : Instr) (s t : State) (b : Word) (k : Kind), exec i s = .next t → t.reply = .memManage b k →
    ∃ a more priv negprio,
      (k = .read ∧ i = .checkRead a more priv negprio ∨ k = .write ∧ i = .checkWrite a more priv negprio ∨
        k = .fetch ∧ i = .checkFetch a more priv negprio) ∧
      ∃ j ≤ more.toNat, b = a + BitVec.ofNat 32 j

/-- R209, R146: only privileged register writes and reset change the configuration. -/
def Obligations.ConfigurationChangedOnlyByPrivilegedWrites : Prop :=
  ∀ (i : Instr) (s t : State), exec i s = .next t → t.cfg ≠ s.cfg →
    i = .reset ∨ i.regAccess? = some (true, true)

/-- R55, R202: the frame of reads and of refused privileges over all register operations: a register read and an
unprivileged access of either kind change nothing of the MPU's state. -/
def Obligations.ReadsAndRefusedAccessesChangeNothing : Prop :=
  ∀ (i : Instr) (s t : State), i.isRegRead ∨ i.isUnprivilegedRegAccess → exec i s = .next t → ReadFrame s t

/-- The frame of the checks (R160 "it writes nothing", R64): nothing but the reply, the log and the draws; the log
grows by the one data access, and by nothing for a fetch or a vector read. -/
def Obligations.ChecksChangeOnlyTheLog : Prop :=
  ∀ (s t : State) (a more : Word) (priv negprio : Bool),
    ((exec (.checkRead a more priv negprio) s = .next t → CheckFrame s t ∧
        ∃ v, t.accLog = logAfter s a more .read priv negprio v) ∧
      (exec (.checkWrite a more priv negprio) s = .next t → CheckFrame s t ∧
        ∃ v, t.accLog = logAfter s a more .write priv negprio v)) ∧
    (exec (.checkFetch a more priv negprio) s = .next t → CheckFrame s t ∧ t.accLog = s.accLog) ∧
    (exec (.checkVector a priv negprio) s = .next t → CheckFrame s t ∧ t.accLog = s.accLog ∧ t.draws = s.draws)

/-- R6: no operation changes the implementation's parameters. That none takes back a draw or touches the operations
still issued is the model's own discipline (logs 1, 6). -/
def Obligations.ParametersFixed : Prop :=
  ∀ (i : Instr) (s t : State), exec i s = .next t →
    t.impl = s.impl ∧ t.pending = s.pending ∧ s.draws ≤ t.draws
end

