-- ==== Sys2Proof/Laws/Decode.lean ====
section
/-! SUPPORT. The small lemmas of the packet's fields: what each field of an encoded control word reads as, and which
register an address belongs to. -/

namespace Sys2Proof

theorem regOfAddr_of_holds {r : Reg} {a : Word} (h : r.holds a = true) : regOfAddr a = some r := by
  have hw : wordAddr a = r.addr := eq_of_beq h
  unfold regOfAddr
  rw [hw]
  cases r <;> decide

theorem holds_of_regOfAddr {r : Reg} {a : Word} (h : regOfAddr a = some r) : r.holds a = true := by
  simp only [regOfAddr] at h
  repeat' split at h
  all_goals simp_all [Reg.holds, Reg.addr]
  all_goals (subst h; rfl)

@[simp] theorem sizeOfCode_codeOfSize (size : Size) : sizeOfCode (codeOfSize size) = some size := by
  cases size <;> decide

theorem codeOfSize_sizeOfCode {code : BitVec 2} {size : Size} (h : sizeOfCode code = some size) :
    codeOfSize size = code := by
  revert code; cases size <;> decide

@[simp] theorem ctrlWord_format (code : BitVec 2) (bit3 bit2 : Bool) (format : BitVec 2) :
    (ctrlWord code bit3 bit2 format).extractLsb' 0 2 = format := by
  revert code bit3 bit2 format; decide

theorem ctrlWord_bit2 (code : BitVec 2) (bit3 bit2 : Bool) (format : BitVec 2) :
    (ctrlWord code bit3 bit2 format).getLsbD 2 = bit2 := by
  revert code bit3 bit2 format; decide

theorem ctrlWord_bit3 (code : BitVec 2) (bit3 bit2 : Bool) (format : BitVec 2) :
    (ctrlWord code bit3 bit2 format).getLsbD 3 = bit3 := by
  revert code bit3 bit2 format; decide

/-- The simp normal form of a bit read at a literal place below the width. -/
@[simp] theorem ctrlWord_getElem2 (code : BitVec 2) (bit3 bit2 : Bool) (format : BitVec 2) :
    (ctrlWord code bit3 bit2 format)[2] = bit2 := ctrlWord_bit2 code bit3 bit2 format

@[simp] theorem ctrlWord_getElem3 (code : BitVec 2) (bit3 bit2 : Bool) (format : BitVec 2) :
    (ctrlWord code bit3 bit2 format)[3] = bit3 := ctrlWord_bit3 code bit3 bit2 format

@[simp] theorem ctrlWord_code (code : BitVec 2) (bit3 bit2 : Bool) (format : BitVec 2) :
    (ctrlWord code bit3 bit2 format).extractLsb' 4 2 = code := by
  revert code bit3 bit2 format; decide

@[simp] theorem ctrlWord_unused (code : BitVec 2) (bit3 bit2 : Bool) (format : BitVec 2) :
    (ctrlWord code bit3 bit2 format).extractLsb' 6 26 = 0#26 := by
  revert code bit3 bit2 format; decide

end Sys2Proof
end

