-- ==== Sys2Proof/Laws/State.lean ====
section
/-! SUPPORT. What each update of the state does to each of its fields: one lemma per field per update, each true by
definition. -/

namespace Sys2Proof.Machine

variable (s : State)

/-! ### State.answer -/

@[simp] theorem State.answer_impl (r : Reply) : (s.answer r).impl = s.impl := rfl
@[simp] theorem State.answer_cfg (r : Reply) : (s.answer r).cfg = s.cfg := rfl
@[simp] theorem State.answer_winData (r : Reply) : (s.answer r).winData = s.winData := rfl
@[simp] theorem State.answer_winFetch (r : Reply) : (s.answer r).winFetch = s.winFetch := rfl
@[simp] theorem State.answer_accLog (r : Reply) : (s.answer r).accLog = s.accLog := rfl
@[simp] theorem State.answer_dsbDone (r : Reply) : (s.answer r).dsbDone = s.dsbDone := rfl
@[simp] theorem State.answer_depth (r : Reply) : (s.answer r).depth = s.depth := rfl
@[simp] theorem State.answer_inHandlerOnly (r : Reply) : (s.answer r).inHandlerOnly = s.inHandlerOnly := rfl
@[simp] theorem State.answer_reply (r : Reply) : (s.answer r).reply = r := rfl
@[simp] theorem State.answer_draws (r : Reply) : (s.answer r).draws = s.draws := rfl
@[simp] theorem State.answer_pending (r : Reply) : (s.answer r).pending = s.pending := rfl

/-! ### State.raise -/

@[simp] theorem State.raise_impl (r : Reply) : (s.raise r).impl = s.impl := rfl
@[simp] theorem State.raise_cfg (r : Reply) : (s.raise r).cfg = s.cfg := rfl
@[simp] theorem State.raise_winData (r : Reply) : (s.raise r).winData = s.winData := rfl
@[simp] theorem State.raise_winFetch (r : Reply) : (s.raise r).winFetch = s.winFetch := rfl
@[simp] theorem State.raise_accLog (r : Reply) : (s.raise r).accLog = s.accLog := rfl
@[simp] theorem State.raise_dsbDone (r : Reply) : (s.raise r).dsbDone = s.dsbDone := rfl
@[simp] theorem State.raise_depth (r : Reply) : (s.raise r).depth = s.depth := rfl
@[simp] theorem State.raise_inHandlerOnly (r : Reply) : (s.raise r).inHandlerOnly = s.inHandlerOnly := rfl
@[simp] theorem State.raise_reply (r : Reply) : (s.raise r).reply = r := rfl
@[simp] theorem State.raise_draws (r : Reply) : (s.raise r).draws = s.draws := rfl
@[simp] theorem State.raise_pending (r : Reply) : (s.raise r).pending = s.pending := rfl

/-! ### State.drawn -/

@[simp] theorem State.drawn_impl : (s.drawn).impl = s.impl := rfl
@[simp] theorem State.drawn_cfg : (s.drawn).cfg = s.cfg := rfl
@[simp] theorem State.drawn_winData : (s.drawn).winData = s.winData := rfl
@[simp] theorem State.drawn_winFetch : (s.drawn).winFetch = s.winFetch := rfl
@[simp] theorem State.drawn_accLog : (s.drawn).accLog = s.accLog := rfl
@[simp] theorem State.drawn_dsbDone : (s.drawn).dsbDone = s.dsbDone := rfl
@[simp] theorem State.drawn_depth : (s.drawn).depth = s.depth := rfl
@[simp] theorem State.drawn_inHandlerOnly : (s.drawn).inHandlerOnly = s.inHandlerOnly := rfl
@[simp] theorem State.drawn_reply : (s.drawn).reply = s.reply := rfl
@[simp] theorem State.drawn_draws : (s.drawn).draws = s.draws + 1 := rfl
@[simp] theorem State.drawn_pending : (s.drawn).pending = s.pending := rfl

/-! ### State.adopt -/

@[simp] theorem State.adopt_impl (c : Cfg) : (s.adopt c).impl = s.impl := rfl
@[simp] theorem State.adopt_cfg (c : Cfg) : (s.adopt c).cfg = c := rfl
@[simp] theorem State.adopt_winData (c : Cfg) : (s.adopt c).winData = addCfg s.winData c := rfl
@[simp] theorem State.adopt_winFetch (c : Cfg) : (s.adopt c).winFetch = addCfg s.winFetch c := rfl
@[simp] theorem State.adopt_accLog (c : Cfg) : (s.adopt c).accLog = s.accLog := rfl
@[simp] theorem State.adopt_dsbDone (c : Cfg) : (s.adopt c).dsbDone = false := rfl
@[simp] theorem State.adopt_depth (c : Cfg) : (s.adopt c).depth = s.depth := rfl
@[simp] theorem State.adopt_inHandlerOnly (c : Cfg) :
    (s.adopt c).inHandlerOnly = if s.depth = 0 then false else s.inHandlerOnly := rfl
@[simp] theorem State.adopt_reply (c : Cfg) : (s.adopt c).reply = .ok := rfl
@[simp] theorem State.adopt_draws (c : Cfg) : (s.adopt c).draws = s.draws := rfl
@[simp] theorem State.adopt_pending (c : Cfg) : (s.adopt c).pending = s.pending := rfl

/-! ### State.logged -/

@[simp] theorem State.logged_impl (a more : Word) (k : Kind) (priv negprio : Bool) (v : Verdict) :
    (s.logged a more k priv negprio v).impl = s.impl := rfl
@[simp] theorem State.logged_cfg (a more : Word) (k : Kind) (priv negprio : Bool) (v : Verdict) :
    (s.logged a more k priv negprio v).cfg = s.cfg := rfl
@[simp] theorem State.logged_winData (a more : Word) (k : Kind) (priv negprio : Bool) (v : Verdict) :
    (s.logged a more k priv negprio v).winData = s.winData := rfl
@[simp] theorem State.logged_winFetch (a more : Word) (k : Kind) (priv negprio : Bool) (v : Verdict) :
    (s.logged a more k priv negprio v).winFetch = s.winFetch := rfl
@[simp] theorem State.logged_accLog (a more : Word) (k : Kind) (priv negprio : Bool) (v : Verdict) :
    (s.logged a more k priv negprio v).accLog =
      s.accLog ++ [{ addr := a, more := more, kind := k, priv := priv, negprio := negprio, verdict := v }] := rfl
@[simp] theorem State.logged_dsbDone (a more : Word) (k : Kind) (priv negprio : Bool) (v : Verdict) :
    (s.logged a more k priv negprio v).dsbDone = s.dsbDone := rfl
@[simp] theorem State.logged_depth (a more : Word) (k : Kind) (priv negprio : Bool) (v : Verdict) :
    (s.logged a more k priv negprio v).depth = s.depth := rfl
@[simp] theorem State.logged_inHandlerOnly (a more : Word) (k : Kind) (priv negprio : Bool) (v : Verdict) :
    (s.logged a more k priv negprio v).inHandlerOnly = s.inHandlerOnly := rfl
@[simp] theorem State.logged_reply (a more : Word) (k : Kind) (priv negprio : Bool) (v : Verdict) :
    (s.logged a more k priv negprio v).reply = s.reply := rfl
@[simp] theorem State.logged_draws (a more : Word) (k : Kind) (priv negprio : Bool) (v : Verdict) :
    (s.logged a more k priv negprio v).draws = s.draws := rfl
@[simp] theorem State.logged_pending (a more : Word) (k : Kind) (priv negprio : Bool) (v : Verdict) :
    (s.logged a more k priv negprio v).pending = s.pending := rfl

/-! ### State.dsb -/

@[simp] theorem State.dsb_impl : (s.dsb).impl = s.impl := rfl
@[simp] theorem State.dsb_cfg : (s.dsb).cfg = s.cfg := rfl
@[simp] theorem State.dsb_winData : (s.dsb).winData = [s.cfg] := rfl
@[simp] theorem State.dsb_winFetch : (s.dsb).winFetch = s.winFetch := rfl
@[simp] theorem State.dsb_accLog : (s.dsb).accLog = [] := rfl
@[simp] theorem State.dsb_dsbDone : (s.dsb).dsbDone = true := rfl
@[simp] theorem State.dsb_depth : (s.dsb).depth = s.depth := rfl
@[simp] theorem State.dsb_inHandlerOnly : (s.dsb).inHandlerOnly = s.inHandlerOnly := rfl
@[simp] theorem State.dsb_reply : (s.dsb).reply = .ok := rfl
@[simp] theorem State.dsb_draws : (s.dsb).draws = s.draws := rfl
@[simp] theorem State.dsb_pending : (s.dsb).pending = s.pending := rfl

/-! ### State.isb -/

@[simp] theorem State.isb_impl : (s.isb).impl = s.impl := rfl
@[simp] theorem State.isb_cfg : (s.isb).cfg = s.cfg := rfl
@[simp] theorem State.isb_winData : (s.isb).winData = s.winData := rfl
@[simp] theorem State.isb_winFetch : (s.isb).winFetch = if s.dsbDone = true then [s.cfg] else s.winFetch := rfl
@[simp] theorem State.isb_accLog : (s.isb).accLog = s.accLog := rfl
@[simp] theorem State.isb_dsbDone : (s.isb).dsbDone = s.dsbDone := rfl
@[simp] theorem State.isb_depth : (s.isb).depth = s.depth := rfl
@[simp] theorem State.isb_inHandlerOnly :
    (s.isb).inHandlerOnly = if s.dsbDone = true then true else s.inHandlerOnly := rfl
@[simp] theorem State.isb_reply : (s.isb).reply = .ok := rfl
@[simp] theorem State.isb_draws : (s.isb).draws = s.draws := rfl
@[simp] theorem State.isb_pending : (s.isb).pending = s.pending := rfl

/-! ### State.enterException -/

@[simp] theorem State.enterException_impl : (s.enterException).impl = s.impl := rfl
@[simp] theorem State.enterException_cfg : (s.enterException).cfg = s.cfg := rfl
@[simp] theorem State.enterException_winData : (s.enterException).winData = s.winData := rfl
@[simp] theorem State.enterException_winFetch : (s.enterException).winFetch = s.winFetch := rfl
@[simp] theorem State.enterException_accLog : (s.enterException).accLog = s.accLog := rfl
@[simp] theorem State.enterException_dsbDone : (s.enterException).dsbDone = s.dsbDone := rfl
@[simp] theorem State.enterException_depth : (s.enterException).depth = s.depth + 1 := rfl
@[simp] theorem State.enterException_inHandlerOnly : (s.enterException).inHandlerOnly = s.inHandlerOnly := rfl
@[simp] theorem State.enterException_reply : (s.enterException).reply = .ok := rfl
@[simp] theorem State.enterException_draws : (s.enterException).draws = s.draws := rfl
@[simp] theorem State.enterException_pending : (s.enterException).pending = s.pending := rfl

/-! ### State.returnException -/

@[simp] theorem State.returnException_impl : (s.returnException).impl = s.impl := rfl
@[simp] theorem State.returnException_cfg : (s.returnException).cfg = s.cfg := rfl
@[simp] theorem State.returnException_winData : (s.returnException).winData = s.winData := rfl
@[simp] theorem State.returnException_winFetch :
    (s.returnException).winFetch =
      if 1 ≤ s.depth ∧ s.dsbDone = true ∧ s.inHandlerOnly = true then [s.cfg] else s.winFetch := rfl
@[simp] theorem State.returnException_accLog : (s.returnException).accLog = s.accLog := rfl
@[simp] theorem State.returnException_dsbDone : (s.returnException).dsbDone = s.dsbDone := rfl
@[simp] theorem State.returnException_depth : (s.returnException).depth = s.depth - 1 := rfl
@[simp] theorem State.returnException_inHandlerOnly : (s.returnException).inHandlerOnly = s.inHandlerOnly := rfl
@[simp] theorem State.returnException_reply : (s.returnException).reply = .ok := rfl
@[simp] theorem State.returnException_draws : (s.returnException).draws = s.draws := rfl
@[simp] theorem State.returnException_pending : (s.returnException).pending = s.pending := rfl

/-! ### State.afterReset -/

@[simp] theorem State.afterReset_impl : (s.afterReset).impl = s.impl := rfl
@[simp] theorem State.afterReset_cfg : (s.afterReset).cfg = Cfg.reset s.impl.nregions.count := rfl
@[simp] theorem State.afterReset_winData : (s.afterReset).winData = [Cfg.reset s.impl.nregions.count] := rfl
@[simp] theorem State.afterReset_winFetch : (s.afterReset).winFetch = [Cfg.reset s.impl.nregions.count] := rfl
@[simp] theorem State.afterReset_accLog : (s.afterReset).accLog = [] := rfl
@[simp] theorem State.afterReset_dsbDone : (s.afterReset).dsbDone = true := rfl
@[simp] theorem State.afterReset_depth : (s.afterReset).depth = 0 := rfl
@[simp] theorem State.afterReset_inHandlerOnly : (s.afterReset).inHandlerOnly = true := rfl
@[simp] theorem State.afterReset_reply : (s.afterReset).reply = .ok := rfl
@[simp] theorem State.afterReset_draws : (s.afterReset).draws = s.draws := rfl
@[simp] theorem State.afterReset_pending : (s.afterReset).pending = s.pending := rfl

/-! ### State.resume -/

@[simp] theorem State.resume_impl (rest : List Packet) : (s.resume rest).impl = s.impl := rfl
@[simp] theorem State.resume_cfg (rest : List Packet) : (s.resume rest).cfg = s.cfg := rfl
@[simp] theorem State.resume_winData (rest : List Packet) : (s.resume rest).winData = s.winData := rfl
@[simp] theorem State.resume_winFetch (rest : List Packet) : (s.resume rest).winFetch = s.winFetch := rfl
@[simp] theorem State.resume_accLog (rest : List Packet) : (s.resume rest).accLog = s.accLog := rfl
@[simp] theorem State.resume_dsbDone (rest : List Packet) : (s.resume rest).dsbDone = s.dsbDone := rfl
@[simp] theorem State.resume_depth (rest : List Packet) : (s.resume rest).depth = s.depth := rfl
@[simp] theorem State.resume_inHandlerOnly (rest : List Packet) :
    (s.resume rest).inHandlerOnly = s.inHandlerOnly := rfl
@[simp] theorem State.resume_reply (rest : List Packet) : (s.resume rest).reply = s.reply := rfl
@[simp] theorem State.resume_draws (rest : List Packet) : (s.resume rest).draws = s.draws := rfl

/-! ### State.withFetchWord -/

@[simp] theorem State.withFetchWord_impl (nbits w : Nat) : (s.withFetchWord nbits w).impl = s.impl := rfl
@[simp] theorem State.withFetchWord_cfg (nbits w : Nat) : (s.withFetchWord nbits w).cfg = s.cfg := rfl
@[simp] theorem State.withFetchWord_winData (nbits w : Nat) : (s.withFetchWord nbits w).winData = s.winData := rfl
@[simp] theorem State.withFetchWord_winFetch (nbits w : Nat) : (s.withFetchWord nbits w).winFetch = s.winFetch := rfl
@[simp] theorem State.withFetchWord_accLog (nbits w : Nat) : (s.withFetchWord nbits w).accLog = s.accLog := rfl
@[simp] theorem State.withFetchWord_dsbDone (nbits w : Nat) : (s.withFetchWord nbits w).dsbDone = s.dsbDone := rfl
@[simp] theorem State.withFetchWord_depth (nbits w : Nat) : (s.withFetchWord nbits w).depth = s.depth := rfl
@[simp] theorem State.withFetchWord_inHandlerOnly (nbits w : Nat) :
    (s.withFetchWord nbits w).inHandlerOnly = s.inHandlerOnly := rfl
@[simp] theorem State.withFetchWord_reply (nbits w : Nat) : (s.withFetchWord nbits w).reply = s.reply := rfl
@[simp] theorem State.withFetchWord_draws (nbits w : Nat) : (s.withFetchWord nbits w).draws = s.draws := rfl
@[simp] theorem State.withFetchWord_pending (nbits w : Nat) :
    (s.withFetchWord nbits w).pending = { head := packetOfBits nbits w, rest := [] } :: s.pending := rfl

@[simp] theorem State.resume_nil : s.resume [] = s := rfl
theorem State.resume_cons_pending (q : Packet) (qs : List Packet) :
    (s.resume (q :: qs)).pending =
      if s.reply.isFault = true then s.pending else { head := q, rest := qs } :: s.pending := rfl

/-! ### The parameters in force depend on the implementation alone -/

theorem State.params_eq (t : State) (h : t.impl = s.impl) : t.params = s.params := by
  simp only [State.params, h]

end Sys2Proof.Machine
end

