-- ==== Sys2Proof/Laws/Ops.lean ====
section
/-! SUPPORT. What each shared operation can do, said once: if it answers a next state, then which. Later proofs cite
these and do not unfold the operations. -/

namespace Sys2Proof.Machine

variable {s t : State}

/-! ### Register accesses -/

theorem regPre_refused {addr : Word} {size : Size} {priv : Bool} {go : Result} (h : aligned addr size = false) :
    regPre addr size priv s go = unpredictable .regAccessSize := if_pos h

theorem regPre_unprivileged {addr : Word} {size : Size} {go : Result} (h : aligned addr size = true) :
    regPre addr size false s go = .next (s.raise .regPriv) := by
  simp [regPre, h]

theorem regPre_accepted {addr : Word} {size : Size} {go : Result} (h : aligned addr size = true) :
    regPre addr size true s go = go := by
  simp [regPre, h]

theorem regPrePresent_accepted {addr : Word} {size : Size} {go : Result} (h : aligned addr size = true)
    (hp : s.impl.nregions ≠ .absent) : regPrePresent addr size true s go = go := by
  simp [regPrePresent, regPre_accepted h, hp]

theorem regPre_next {addr : Word} {size : Size} {priv : Bool} {go : Result}
    (h : regPre addr size priv s go = .next t) :
    aligned addr size = true ∧ ((priv = false ∧ t = s.raise .regPriv) ∨ (priv = true ∧ go = .next t)) := by
  cases ha : aligned addr size <;> cases priv <;> simp_all [regPre, unpredictable]

theorem regPrePresent_next {addr : Word} {size : Size} {priv : Bool} {go : Result}
    (h : regPrePresent addr size priv s go = .next t) :
    aligned addr size = true ∧ ((priv = false ∧ t = s.raise .regPriv) ∨
      (priv = true ∧ s.impl.nregions ≠ .absent ∧ go = .next t)) := by
  obtain ⟨ha, hp | ⟨hp, hg⟩⟩ := regPre_next h
  · exact ⟨ha, .inl hp⟩
  · by_cases hn : s.impl.nregions = .absent
    · simp [hn, unpredictable] at hg
    · exact ⟨ha, .inr ⟨hp, hn, by simpa [hn] using hg⟩⟩

theorem aligned_iff {addr : Word} {size : Size} :
    aligned addr size = true ↔ size = .word ∧ addr.toNat % 4 = 0 := by
  have h : addr.extractLsb' 0 2 = 0#2 ↔ addr.toNat % 4 = 0 := by
    rw [← BitVec.toNat_inj]
    simp [BitVec.extractLsb'_toNat]
  simp only [aligned, Bool.and_eq_true, beq_iff_eq, h]

theorem aligned_reg (r : Reg) : aligned r.addr .word = true := by cases r <;> decide

/-- RegPre says of an access it does not let through what R120 says. -/
theorem regPre_rule (s : State) (addr : Word) (size : Size) (priv : Bool) (go : Result) :
    RegPreRule s addr size priv (regPre addr size priv s go) := by
  refine ⟨fun h => regPre_refused ?_, ?_⟩
  · rw [← Bool.not_eq_true, aligned_iff]
    rintro ⟨hs, ha⟩
    exact h.elim (fun f => f hs) (fun f => f ha)
  · rintro rfl ha rfl
    exact regPre_unprivileged (aligned_iff.mpr ⟨rfl, ha⟩)

theorem regPrePresent_rule (s : State) (addr : Word) (size : Size) (priv : Bool) (go : Result) :
    RegPrePresentRule s addr size priv (regPrePresent addr size priv s go) := by
  refine ⟨regPre_rule s addr size priv _, ?_⟩
  rintro ⟨rfl, ha, rfl⟩ hn
  rw [regPrePresent, regPre_accepted (aligned_iff.mpr ⟨rfl, ha⟩), if_pos hn]
  rfl

theorem Accepted.regPre_eq {addr : Word} {size : Size} {priv : Bool} {go : Result} (h : Accepted addr size priv) :
    regPre addr size priv s go = go := by
  obtain ⟨rfl, ha, rfl⟩ := h
  exact regPre_accepted (aligned_iff.mpr ⟨rfl, ha⟩)

theorem Accepted.regPrePresent_eq {addr : Word} {size : Size} {priv : Bool} {go : Result}
    (h : Accepted addr size priv) (hp : s.impl.nregions ≠ .absent) : regPrePresent addr size priv s go = go := by
  rw [regPrePresent, h.regPre_eq, if_neg hp]

/-! ### The window -/

theorem mem_addCfg {win : List Cfg} {c d : Cfg} : d ∈ addCfg win c ↔ d ∈ win ∨ d = c := by
  unfold addCfg
  split
  · exact ⟨.inl, fun h => h.elim id (fun h => h ▸ ‹c ∈ win›)⟩
  · simp

theorem addCfg_nodup {win : List Cfg} {c : Cfg} (h : win.Nodup) : (addCfg win c).Nodup := by
  unfold addCfg
  split
  · exact h
  · simp only [List.nodup_append, h, true_and]
    refine ⟨by simp, fun a ha b hb => ?_⟩
    rintro rfl
    simp_all

theorem commit_next {c : Cfg} (h : commit s c = .next t) :
    (c = s.cfg ∧ t = s.answer .ok) ∨ (c ≠ s.cfg ∧ s.Undisturbed c ∧ t = s.adopt c) := by
  unfold commit at h
  split at h
  · exact .inl ⟨‹_›, by cases h; rfl⟩
  · split at h
    · cases h
    · refine .inr ⟨‹_›, fun e he => ?_, by cases h; rfl⟩
      simp_all

theorem commit_writes (s : State) (c : Cfg) : Writes s c (commit s c) := by
  constructor
  · intro hne hd
    have hd' : s.accLog.any (Access.changed s.params c) = true := by
      simp only [State.Undisturbed, Classical.not_forall, Bool.not_eq_false] at hd
      obtain ⟨e, he, hc⟩ := hd
      exact List.any_eq_true.mpr ⟨e, he, hc⟩
    simp [commit, hne, hd', unpredictable]
  · intro h
    by_cases hc : c = s.cfg
    · exact ⟨s.answer .ok, by simp [commit, hc], by simp [hc], rfl, by simp [WindowRule], rfl, rfl, rfl, rfl, rfl⟩
    · have hd : ¬ s.accLog.any (Access.changed s.params c) = true := by
        simp only [List.any_eq_true, not_exists, not_and, Bool.not_eq_true]
        exact fun e he => (h.resolve_left hc) e he
      refine ⟨s.adopt c, by simp [commit, hc, hd], rfl, rfl, ?_, rfl, rfl, rfl, rfl, rfl⟩
      simp [WindowRule, hc, mem_addCfg]

theorem choose_mem {win : List Cfg} {c : Cfg} {k : Nat} (h : c ∈ win) : choose win c k ∈ win := by
  match win, h with
  | [d], _ => simp [choose]
  | d :: e :: l, _ =>
    have hlt : Config.freeChoice k % (d :: e :: l).length < (d :: e :: l).length := Nat.mod_lt _ (by simp)
    simp only [choose, List.getD_eq_getElem?_getD, List.getElem?_eq_getElem hlt, Option.getD_some]
    exact List.getElem_mem hlt

@[simp] theorem choose_single (d c : Cfg) (k : Nat) : choose [d] c k = d := rfl

/-! ### Checks -/

theorem conclude_next {v : Verdict} (h : conclude s v = .next t) :
    (∃ m, v = .permit m ∧ t = s.answer (.permit m)) ∨ (∃ a k, v = .memManage a k ∧ t = s.raise (.memManage a k)) := by
  cases v with
  | permit m => cases h; exact .inl ⟨m, rfl, rfl⟩
  | memManage a k => cases h; exact .inr ⟨a, k, rfl, rfl⟩
  | unpredictable r => cases h

theorem lowestFault_none {vs : List Verdict} :
    lowestFault vs = none ↔ ∀ (a : Word) (k : Kind), Verdict.memManage a k ∉ vs := by
  induction vs with
  | nil => simp [lowestFault]
  | cons v vs ih =>
    cases v with
    | permit m => simpa [lowestFault] using ih
    | unpredictable r => simpa [lowestFault] using ih
    | memManage a k =>
      refine iff_of_false ?_ fun hn => hn a k (by simp)
      cases h : lowestFault vs with
      | none => simp [lowestFault, h]
      | some f =>
        simp only [lowestFault, h]
        split <;> simp

/-- `lowestFault` finds a fault of the list, and none of the list's faults is at a lower address. -/
theorem lowestFault_some {vs : List Verdict} {a : Word} {k : Kind} (h : lowestFault vs = some (a, k)) :
    Verdict.memManage a k ∈ vs ∧ ∀ (b : Word) (l : Kind), Verdict.memManage b l ∈ vs → a.toNat ≤ b.toNat := by
  induction vs generalizing a k with
  | nil => simp [lowestFault] at h
  | cons v vs ih =>
    cases v with
    | permit m => simpa using ih (by simpa [lowestFault] using h)
    | unpredictable r => simpa using ih (by simpa [lowestFault] using h)
    | memManage c j =>
      cases hf : lowestFault vs with
      | none =>
        obtain ⟨rfl, rfl⟩ : c = a ∧ j = k := by simpa [lowestFault, hf] using h
        refine ⟨by simp, fun b l hb => ?_⟩
        rcases List.mem_cons.mp hb with hb | hb
        · cases hb; exact Nat.le_refl _
        · exact absurd hb (lowestFault_none.mp hf b l)
      | some f =>
        obtain ⟨hm, hl⟩ := ih (a := f.1) (k := f.2) (by rw [hf])
        simp only [lowestFault, hf] at h
        split at h
        · obtain ⟨rfl, rfl⟩ : f.1 = a ∧ f.2 = k := by simpa [Prod.ext_iff] using h
          refine ⟨List.mem_cons_of_mem _ hm, fun b l hb => ?_⟩
          rcases List.mem_cons.mp hb with hb | hb
          · cases hb; exact Nat.le_of_lt ‹_›
          · exact hl b l hb
        · obtain ⟨rfl, rfl⟩ : c = a ∧ j = k := by simpa using h
          refine ⟨by simp, fun b l hb => ?_⟩
          rcases List.mem_cons.mp hb with hb | hb
          · cases hb; exact Nat.le_refl _
          · exact Nat.le_trans (Nat.le_of_not_lt ‹_›) (hl b l hb)

theorem judge_one (p : Params) (c : Cfg) (a : Word) (k : Kind) (priv negprio : Bool) :
    judge p c a 0 k priv negprio = check p c a k priv negprio := by
  have h : (List.range (0 + 1)).map (fun i => check p c (a + BitVec.ofNat 32 i) k priv negprio) =
      [check p c a k priv negprio] := by simp
  unfold judge
  rw [h]
  cases check p c a k priv negprio <;> simp [joinVerdicts, lowestFault, Verdict.reason?]

/-! ### One step -/

theorem step_idle (h : s.pending = []) : step s = .next s := by
  simp [step, fetch, h]

theorem step_next (h : step s = .next t) :
    (s.pending = [] ∧ t = s) ∨
      ∃ b bs i u, s.pending = b :: bs ∧ decode b.head = .instr i ∧ exec i { s with pending := bs } = .next u ∧
        t = u.resume b.rest := by
  cases hp : s.pending with
  | nil => rw [step_idle hp] at h; cases h; exact .inl ⟨rfl, rfl⟩
  | cons b bs =>
    right
    simp only [step, fetch, hp] at h
    cases hd : decode b.head with
    | rejected r => simp [hd] at h
    | instr i =>
      simp only [hd] at h
      cases he : exec i { s with pending := bs } with
      | next u =>
        simp only [he, resumeAfter] at h
        cases h
        exact ⟨b, bs, i, u, rfl, hd, he, rfl⟩
      | fault f => simp [he, resumeAfter] at h
      | refused r => simp [he, resumeAfter] at h

end Sys2Proof.Machine
end

