-- ==== Sys2Proof/Laws/Exec.lean ====
section
/-! SUPPORT. What carrying out an operation can do, said once: `exec_next` lists every next state an operation can
answer. Whole-machine claims cite it and do not unfold `exec`. -/

namespace Sys2Proof.Machine

variable {s t : State}

/-- The configurations a register write can ask for in state `s` (R124, R126, R128, R130). -/
inductive Asks (s : State) : Cfg → Prop where
  | ctrl (d : Word) (h : (ctrlOfWord d).hfnmena = true → (ctrlOfWord d).enable = true) :
      Asks s { s.cfg with ctrl := ctrlOfWord d }
  | rnr (n : BitVec 8) (h : n.toNat < s.impl.nregions.count) : Asks s { s.cfg with rnr := some n }
  | base (n : Nat) (d : Word) (h : n < s.impl.nregions.count) : Asks s (s.cfg.withBase n d)
  | baseValid (n : BitVec 4) (d : Word) (h : n.toNat < s.impl.nregions.count) :
      Asks s (Cfg.withBase { s.cfg with rnr := some (n.zeroExtend 8) } n.toNat d)
  | rasr (n : Nat) (d : Word) (h : n < s.impl.nregions.count) : Asks s (s.cfg.withRasr n d)

theorem strayRnr_none {n : BitVec 8} (hr : s.cfg.rnr = some n) (h : strayRnr s = none) :
    n.toNat < s.impl.nregions.count := by
  by_cases hn : n.toNat < s.impl.nregions.count
  · exact hn
  · simp [strayRnr, hr, hn] at h

theorem readRbar_next {addr : Word} {size : Size} {priv : Bool} (h : readRbar addr size priv s = .next t) :
    (priv = false ∧ t = s.raise .regPriv) ∨ (priv = true ∧ t = s.drawn.answer (.value (rbarRead s))) := by
  obtain ⟨-, hp | ⟨hp, -, hg⟩⟩ := regPrePresent_next h
  · exact .inl hp
  · cases hs : strayRnr s with
    | none => simp only [hs] at hg; cases hg; exact .inr ⟨hp, rfl⟩
    | some n => simp [hs] at hg

theorem readRasr_next {addr : Word} {size : Size} {priv : Bool} (h : readRasr addr size priv s = .next t) :
    (priv = false ∧ t = s.raise .regPriv) ∨ (priv = true ∧ t = s.drawn.answer (.value (rasrRead s))) := by
  obtain ⟨-, hp | ⟨hp, -, hg⟩⟩ := regPrePresent_next h
  · exact .inl hp
  · cases hs : strayRnr s with
    | none => simp only [hs] at hg; cases hg; exact .inr ⟨hp, rfl⟩
    | some n => simp [hs] at hg

theorem writeRbar_next {addr : Word} {size : Size} {priv : Bool} {d : Word}
    (h : writeRbar addr size priv d s = .next t) :
    (priv = false ∧ t = s.raise .regPriv) ∨ (priv = true ∧ ∃ c, Asks s c ∧ commit s c = .next t) := by
  obtain ⟨-, hp | ⟨hp, -, hg⟩⟩ := regPrePresent_next h
  · exact .inl hp
  · refine .inr ⟨hp, ?_⟩
    split at hg
    · split at hg
      · exact ⟨_, .baseValid _ d ‹_›, hg⟩
      · cases hg
    · split at hg
      · cases hg
      · cases hg
      · exact ⟨_, .base _ d (strayRnr_none ‹_› ‹_›), hg⟩

theorem writeRasr_next {addr : Word} {size : Size} {priv : Bool} {d : Word}
    (h : writeRasr addr size priv d s = .next t) :
    (priv = false ∧ t = s.raise .regPriv) ∨ (priv = true ∧ ∃ c, Asks s c ∧ commit s c = .next t) := by
  obtain ⟨-, hp | ⟨hp, -, hg⟩⟩ := regPrePresent_next h
  · exact .inl hp
  · refine .inr ⟨hp, ?_⟩
    split at hg
    · cases hg
    · split at hg
      · cases hg
      · cases hg
      · exact ⟨_, .rasr _ d (strayRnr_none ‹_› ‹_›), hg⟩

theorem execMpuCtrlWrite_next {addr : Word} {size : Size} {priv : Bool} {d : Word}
    (h : execMpuCtrlWrite addr size priv d s = .next t) :
    (priv = false ∧ t = s.raise .regPriv) ∨ (priv = true ∧ ∃ c, Asks s c ∧ commit s c = .next t) := by
  obtain ⟨-, hp | ⟨hp, -, hg⟩⟩ := regPrePresent_next h
  · exact .inl hp
  · refine .inr ⟨hp, ?_⟩
    split at hg
    · cases hg
    · split at hg
      · cases hg
      · refine ⟨_, .ctrl d fun hh => ?_, hg⟩
        cases he : (ctrlOfWord d).enable <;> simp_all

theorem execMpuRnrWrite_next {addr : Word} {size : Size} {priv : Bool} {d : Word}
    (h : execMpuRnrWrite addr size priv d s = .next t) :
    (priv = false ∧ t = s.raise .regPriv) ∨ (priv = true ∧ ∃ c, Asks s c ∧ commit s c = .next t) := by
  obtain ⟨-, hp | ⟨hp, -, hg⟩⟩ := regPrePresent_next h
  · exact .inl hp
  · refine .inr ⟨hp, ?_⟩
    split at hg
    · cases hg
    · split at hg
      · exact ⟨_, .rnr _ ‹_›, hg⟩
      · cases hg

/-- Every next state an operation can answer: a refused privilege, a value read, a committed write, a verdict on a data
access, a fetch or a vector read, or one of the events. -/
inductive Effect (s t : State) : Instr → Prop where
  | unprivileged {i : Instr} (h : i.isUnprivilegedRegAccess) (ht : t = s.raise .regPriv) : Effect s t i
  | read {i : Instr} (h : i.regAccess? = some (true, false)) (w : Word)
      (ht : t = s.answer (.value w) ∨ t = s.drawn.answer (.value w)) : Effect s t i
  | write {i : Instr} (h : i.regAccess? = some (true, true)) (c : Cfg) (hc : Asks s c) (ht : commit s c = .next t) :
      Effect s t i
  | checkRead (a more : Word) (priv negprio : Bool) (ht : checkData a more .read priv negprio s = .next t) :
      Effect s t (.checkRead a more priv negprio)
  | checkWrite (a more : Word) (priv negprio : Bool) (ht : checkData a more .write priv negprio s = .next t) :
      Effect s t (.checkWrite a more priv negprio)
  | checkFetch (a more : Word) (priv negprio : Bool) (ht : checkFetched a more priv negprio s = .next t) :
      Effect s t (.checkFetch a more priv negprio)
  | checkVector (a : Word) (priv negprio : Bool) (ht : t = s.answer (.permit (Config.defaultMap a).attr)) :
      Effect s t (.checkVector a priv negprio)
  | dsb (ht : t = s.dsb) : Effect s t .evtDsb
  | isb (ht : t = s.isb) : Effect s t .evtIsb
  | excEntry (ht : t = s.enterException) : Effect s t .evtExcEntry
  | excReturn (ht : t = s.returnException) : Effect s t .evtExcReturn
  | reset (ht : t = s.afterReset) : Effect s t .reset

theorem Effect.ofRead {i : Instr} {p : Bool} (hi : i.regAccess? = some (p, false)) (w : Word)
    (h : (p = false ∧ t = s.raise .regPriv) ∨
      (p = true ∧ (t = s.answer (.value w) ∨ t = s.drawn.answer (.value w)))) : Effect s t i := by
  obtain ⟨rfl, ht⟩ | ⟨rfl, ht⟩ := h
  · exact .unprivileged (.inl hi) ht
  · exact .read hi w ht

theorem Effect.ofWrite {i : Instr} {p : Bool} (hi : i.regAccess? = some (p, true))
    (h : (p = false ∧ t = s.raise .regPriv) ∨ (p = true ∧ ∃ c, Asks s c ∧ commit s c = .next t)) :
    Effect s t i := by
  obtain ⟨rfl, ht⟩ | ⟨rfl, c, hc, ht⟩ := h
  · exact .unprivileged (.inr hi) ht
  · exact .write hi c hc ht

/-- Carrying out an operation, if it answers a next state, has one of the effects `Effect` lists. -/
theorem exec_next {i : Instr} (h : exec i s = .next t) : Effect s t i := by
  cases i with
  | mpuTypeRead addr size priv =>
    obtain ⟨-, hp⟩ := regPre_next h
    exact .ofRead rfl _ (hp.imp id fun hg => ⟨hg.1, .inl (Host.Outcome.next.inj hg.2).symm⟩)
  | mpuTypeWrite addr size priv data =>
    obtain ⟨-, hp | ⟨-, -, hg⟩⟩ := regPrePresent_next h
    · exact .ofWrite rfl (.inl hp)
    · cases hg
  | mpuCtrlRead addr size priv =>
    obtain ⟨-, hp⟩ := regPrePresent_next h
    exact .ofRead rfl _ (hp.imp id fun hg => ⟨hg.1, .inl (Host.Outcome.next.inj hg.2.2).symm⟩)
  | mpuRnrRead addr size priv =>
    obtain ⟨-, hp⟩ := regPrePresent_next h
    exact .ofRead rfl _ (hp.imp id fun hg => ⟨hg.1, .inr (Host.Outcome.next.inj hg.2.2).symm⟩)
  | mpuCtrlWrite addr size priv data => exact .ofWrite rfl (execMpuCtrlWrite_next h)
  | mpuRnrWrite addr size priv data => exact .ofWrite rfl (execMpuRnrWrite_next h)
  | mpuRbarRead addr size priv =>
    exact .ofRead rfl _ ((readRbar_next h).imp id fun hg => ⟨hg.1, .inr hg.2⟩)
  | mpuRbarWrite addr size priv data => exact .ofWrite rfl (writeRbar_next h)
  | mpuRasrRead addr size priv =>
    exact .ofRead rfl _ ((readRasr_next h).imp id fun hg => ⟨hg.1, .inr hg.2⟩)
  | mpuRasrWrite addr size priv data => exact .ofWrite rfl (writeRasr_next h)
  | mpuRbarA1Read addr size priv =>
    exact .ofRead rfl _ ((readRbar_next h).imp id fun hg => ⟨hg.1, .inr hg.2⟩)
  | mpuRbarA1Write addr size priv data => exact .ofWrite rfl (writeRbar_next h)
  | mpuRasrA1Read addr size priv =>
    exact .ofRead rfl _ ((readRasr_next h).imp id fun hg => ⟨hg.1, .inr hg.2⟩)
  | mpuRasrA1Write addr size priv data => exact .ofWrite rfl (writeRasr_next h)
  | mpuRbarA2Read addr size priv =>
    exact .ofRead rfl _ ((readRbar_next h).imp id fun hg => ⟨hg.1, .inr hg.2⟩)
  | mpuRbarA2Write addr size priv data => exact .ofWrite rfl (writeRbar_next h)
  | mpuRasrA2Read addr size priv =>
    exact .ofRead rfl _ ((readRasr_next h).imp id fun hg => ⟨hg.1, .inr hg.2⟩)
  | mpuRasrA2Write addr size priv data => exact .ofWrite rfl (writeRasr_next h)
  | mpuRbarA3Read addr size priv =>
    exact .ofRead rfl _ ((readRbar_next h).imp id fun hg => ⟨hg.1, .inr hg.2⟩)
  | mpuRbarA3Write addr size priv data => exact .ofWrite rfl (writeRbar_next h)
  | mpuRasrA3Read addr size priv =>
    exact .ofRead rfl _ ((readRasr_next h).imp id fun hg => ⟨hg.1, .inr hg.2⟩)
  | mpuRasrA3Write addr size priv data => exact .ofWrite rfl (writeRasr_next h)
  | checkRead a more priv negprio => exact .checkRead a more priv negprio h
  | checkWrite a more priv negprio => exact .checkWrite a more priv negprio h
  | checkFetch a more priv negprio => exact .checkFetch a more priv negprio h
  | checkVector a priv negprio => exact .checkVector a priv negprio (by cases h; rfl)
  | evtDsb => exact .dsb (by cases h; rfl)
  | evtIsb => exact .isb (by cases h; rfl)
  | evtExcEntry => exact .excEntry (by cases h; rfl)
  | evtExcReturn => exact .excReturn (by cases h; rfl)
  | reset => exact .reset (by cases h; rfl)

end Sys2Proof.Machine
end

