-- ==== Sys2Proof/Laws/PerInstr.lean ====
section
/-! SUPPORT. A fact of every operation's encoding, one lemma per constructor: the control word uses only the six bits
the packet's layout gives it (log 4). -/

namespace Sys2Proof.Laws.Encoding

/-- Bits [31:6] of the operation's control word are 0. -/
def Statement (i : Instr) : Prop := (encode i).ctrl.extractLsb' 6 26 = 0#26

theorem mpuTypeRead (addr : Word) (size : Size) (priv : Bool) :
    Statement (.mpuTypeRead addr size priv) := ctrlWord_unused _ _ _ _
theorem mpuTypeWrite (addr : Word) (size : Size) (priv : Bool) (data : Word) :
    Statement (.mpuTypeWrite addr size priv data) := ctrlWord_unused _ _ _ _
theorem mpuCtrlRead (addr : Word) (size : Size) (priv : Bool) :
    Statement (.mpuCtrlRead addr size priv) := ctrlWord_unused _ _ _ _
theorem mpuCtrlWrite (addr : Word) (size : Size) (priv : Bool) (data : Word) :
    Statement (.mpuCtrlWrite addr size priv data) := ctrlWord_unused _ _ _ _
theorem mpuRnrRead (addr : Word) (size : Size) (priv : Bool) :
    Statement (.mpuRnrRead addr size priv) := ctrlWord_unused _ _ _ _
theorem mpuRnrWrite (addr : Word) (size : Size) (priv : Bool) (data : Word) :
    Statement (.mpuRnrWrite addr size priv data) := ctrlWord_unused _ _ _ _
theorem mpuRbarRead (addr : Word) (size : Size) (priv : Bool) :
    Statement (.mpuRbarRead addr size priv) := ctrlWord_unused _ _ _ _
theorem mpuRbarWrite (addr : Word) (size : Size) (priv : Bool) (data : Word) :
    Statement (.mpuRbarWrite addr size priv data) := ctrlWord_unused _ _ _ _
theorem mpuRasrRead (addr : Word) (size : Size) (priv : Bool) :
    Statement (.mpuRasrRead addr size priv) := ctrlWord_unused _ _ _ _
theorem mpuRasrWrite (addr : Word) (size : Size) (priv : Bool) (data : Word) :
    Statement (.mpuRasrWrite addr size priv data) := ctrlWord_unused _ _ _ _
theorem mpuRbarA1Read (addr : Word) (size : Size) (priv : Bool) :
    Statement (.mpuRbarA1Read addr size priv) := ctrlWord_unused _ _ _ _
theorem mpuRbarA1Write (addr : Word) (size : Size) (priv : Bool) (data : Word) :
    Statement (.mpuRbarA1Write addr size priv data) := ctrlWord_unused _ _ _ _
theorem mpuRasrA1Read (addr : Word) (size : Size) (priv : Bool) :
    Statement (.mpuRasrA1Read addr size priv) := ctrlWord_unused _ _ _ _
theorem mpuRasrA1Write (addr : Word) (size : Size) (priv : Bool) (data : Word) :
    Statement (.mpuRasrA1Write addr size priv data) := ctrlWord_unused _ _ _ _
theorem mpuRbarA2Read (addr : Word) (size : Size) (priv : Bool) :
    Statement (.mpuRbarA2Read addr size priv) := ctrlWord_unused _ _ _ _
theorem mpuRbarA2Write (addr : Word) (size : Size) (priv : Bool) (data : Word) :
    Statement (.mpuRbarA2Write addr size priv data) := ctrlWord_unused _ _ _ _
theorem mpuRasrA2Read (addr : Word) (size : Size) (priv : Bool) :
    Statement (.mpuRasrA2Read addr size priv) := ctrlWord_unused _ _ _ _
theorem mpuRasrA2Write (addr : Word) (size : Size) (priv : Bool) (data : Word) :
    Statement (.mpuRasrA2Write addr size priv data) := ctrlWord_unused _ _ _ _
theorem mpuRbarA3Read (addr : Word) (size : Size) (priv : Bool) :
    Statement (.mpuRbarA3Read addr size priv) := ctrlWord_unused _ _ _ _
theorem mpuRbarA3Write (addr : Word) (size : Size) (priv : Bool) (data : Word) :
    Statement (.mpuRbarA3Write addr size priv data) := ctrlWord_unused _ _ _ _
theorem mpuRasrA3Read (addr : Word) (size : Size) (priv : Bool) :
    Statement (.mpuRasrA3Read addr size priv) := ctrlWord_unused _ _ _ _
theorem mpuRasrA3Write (addr : Word) (size : Size) (priv : Bool) (data : Word) :
    Statement (.mpuRasrA3Write addr size priv data) := ctrlWord_unused _ _ _ _
theorem checkRead (a more : Word) (priv negprio : Bool) :
    Statement (.checkRead a more priv negprio) := ctrlWord_unused _ _ _ _
theorem checkWrite (a more : Word) (priv negprio : Bool) :
    Statement (.checkWrite a more priv negprio) := ctrlWord_unused _ _ _ _
theorem checkFetch (a more : Word) (priv negprio : Bool) :
    Statement (.checkFetch a more priv negprio) := ctrlWord_unused _ _ _ _
theorem checkVector (a : Word) (priv negprio : Bool) :
    Statement (.checkVector a priv negprio) := ctrlWord_unused _ _ _ _
theorem evtDsb : Statement (.evtDsb) := ctrlWord_unused _ _ _ _
theorem evtIsb : Statement (.evtIsb) := ctrlWord_unused _ _ _ _
theorem evtExcEntry : Statement (.evtExcEntry) := ctrlWord_unused _ _ _ _
theorem evtExcReturn : Statement (.evtExcReturn) := ctrlWord_unused _ _ _ _
theorem reset : Statement (.reset) := ctrlWord_unused _ _ _ _

end Sys2Proof.Laws.Encoding
end

