-- ==== Sys2Proof/Tests/Slice0.lean ====
section
/-! SUPPORT. Tests and witnesses. Expected results come from spec 95_test_vectors (E, V and P name its entries) or from
the rule cited; each `witness_` theorem meets the hypotheses of the obligation it is named after. -/

namespace Sys2Proof.Tests

open Sys2Proof.Machine

/-! ### Small states -/

/-- The region that two register words describe. -/
def regionOf (rbar rasr : Word) : Region :=
  { base := some (baseOfRbar rbar), attr := some (attrOfRasr rasr), enable := enableOfRasr rasr }

/-- Configuration A of V8, with a given MPU_CTRL word. -/
def cfgA (ctrl : Word) : Cfg :=
  { ctrl := ctrlOfWord ctrl
    rnr := some 4#8
    region :=
      [regionOf 0x00000010#32 0x06020025#32, regionOf 0x20000011#32 0x130B0021#32,
        regionOf 0x20000012#32 0x110B001D#32, regionOf 0x40000013#32 0x13010039#32,
        regionOf 0x20010014#32 0x020C811F#32, Region.reset, Region.reset, Region.reset] }

/-- A state whose windows have collapsed to `c`. -/
def settled (c : Cfg) : State := { State.reset with cfg := c, winData := [c], winFetch := [c] }

/-- Configuration A in force. -/
def stateA (ctrl : Word) : State := settled (cfgA ctrl)

/-- A region 1 added to one of 4 Gbytes, as V11 does. -/
def cfgWith (extra : Region) : Cfg :=
  { ctrl := ctrlOfWord 1#32
    rnr := some 1#8
    region := [regionOf 0x00000010#32 0x0300003F#32, extra] ++ List.replicate 6 Region.reset }

/-- The machine at reset with another number of regions. -/
def resetWith (n : Regions) : State :=
  { State.reset with
    impl := { Impl.default with nregions := n }
    cfg := Cfg.reset n.count
    winData := [Cfg.reset n.count]
    winFetch := [Cfg.reset n.count] }

/-- The same machine when writes of reserved ones are ignored. -/
def ignoring (s : State) : State := { s with impl := { s.impl with reservedPolicy := .ignore } }

/-- `s` with one operation issued. -/
def sending (s : State) (p : Packet) : State := { s with pending := [{ head := p, rest := [] }] }

/-- The reply of a list of operations. -/
def replyAfter (is : List Instr) (s : State) : Option Reply := (runOps is s).map State.reply

/-- The refusal an operation ends in, if it does. -/
def refusalOf (i : Instr) (s : State) : Option Refusal :=
  match exec i s with
  | .refused r => some r
  | .next _ => none
  | .fault _ => none

/-- The next state a step answers, if it does. -/
def stepOf (s : State) : Option State :=
  match step s with
  | .next t => some t
  | .fault _ => none
  | .refused _ => none

/-- Parameters with a System Control Space and a flat default map, for the checks. -/
def paramsT : Params :=
  { nregions := .eight
    basePolicy := .refuse
    defaultMap := fun _ => { attr := .stronglyOrdered, xn := false }
    inSCS := inSCS Impl.default.scs
    impdefAttr := .stronglyOrdered }

/-! ### Well-formedness -/

/-- One term for each of the 22 checks, each with the address of another register. -/
def illFormed : List Instr :=
  [.mpuTypeRead 0xE000ED94#32 .word true, .mpuTypeWrite 0xE000ED8F#32 .word true 0#32,
    .mpuCtrlRead 0xE000ED98#32 .word true, .mpuCtrlWrite 0xE000ED93#32 .word true 0#32,
    .mpuRnrRead 0xE000ED9C#32 .word true, .mpuRnrWrite 0xE000ED97#32 .word true 0#32,
    .mpuRbarRead 0xE000EDA0#32 .word true, .mpuRbarWrite 0xE000ED9B#32 .word true 0#32,
    .mpuRasrRead 0xE000EDA4#32 .word true, .mpuRasrWrite 0xE000ED9F#32 .word true 0#32] ++
  [.mpuRbarA1Read 0xE000ED9C#32 .word true, .mpuRbarA1Write 0xE000EDA8#32 .word true 0#32,
    .mpuRasrA1Read 0xE000EDA0#32 .word true, .mpuRasrA1Write 0xE000EDAC#32 .word true 0#32,
    .mpuRbarA2Read 0xE000EDA8#32 .word true, .mpuRbarA2Write 0xE000EDB0#32 .word true 0#32,
    .mpuRasrA2Read 0xE000EDAC#32 .word true, .mpuRasrA2Write 0xE000EDB4#32 .word true 0#32,
    .mpuRbarA3Read 0xE000EDB0#32 .word true, .mpuRbarA3Write 0xE000EDB8#32 .word true 0#32,
    .mpuRasrA3Read 0xE000EDBC#32 .word true, .mpuRasrA3Write 0x00000000#32 .word true 0#32]

theorem test_wellFormed_refuses : ∀ i ∈ illFormed, i.wellFormed = false := by decide

/-- R120: unaligned and interior addresses of the word belong to the register (V2 steps 49 to 51). -/
theorem test_wellFormed_interior :
    (Instr.mpuCtrlRead 0xE000ED95#32 .word true).wellFormed = true ∧
      (Instr.mpuRasrWrite 0xE000EDA2#32 .half true 0x130B#32).wellFormed = true := by decide

/-! ### Decoding: addresses from R81, the other bits from log 4 -/

/-- The reads: `ctrl` is size code at [5:4], 0 at [3], unprivileged at [2], format 0 at [1:0]. -/
def readWords : List (Packet × Instr) :=
  [({ addr := 0xE000ED90#32, ctrl := 0b000000#32, data := 0#32 }, .mpuTypeRead 0xE000ED90#32 .word true),
    ({ addr := 0xE000ED94#32, ctrl := 0b000100#32, data := 0#32 }, .mpuCtrlRead 0xE000ED94#32 .word false),
    ({ addr := 0xE000ED98#32, ctrl := 0b010000#32, data := 0#32 }, .mpuRnrRead 0xE000ED98#32 .byte true),
    ({ addr := 0xE000ED9C#32, ctrl := 0b100100#32, data := 0#32 }, .mpuRbarRead 0xE000ED9C#32 .half false),
    ({ addr := 0xE000EDA0#32, ctrl := 0b000000#32, data := 0#32 }, .mpuRasrRead 0xE000EDA0#32 .word true),
    ({ addr := 0xE000EDA4#32, ctrl := 0b000000#32, data := 0#32 }, .mpuRbarA1Read 0xE000EDA4#32 .word true)] ++
  [({ addr := 0xE000EDA8#32, ctrl := 0b000000#32, data := 0#32 }, .mpuRasrA1Read 0xE000EDA8#32 .word true),
    ({ addr := 0xE000EDAC#32, ctrl := 0b000000#32, data := 0#32 }, .mpuRbarA2Read 0xE000EDAC#32 .word true),
    ({ addr := 0xE000EDB0#32, ctrl := 0b000000#32, data := 0#32 }, .mpuRasrA2Read 0xE000EDB0#32 .word true),
    ({ addr := 0xE000EDB4#32, ctrl := 0b000000#32, data := 0#32 }, .mpuRbarA3Read 0xE000EDB4#32 .word true),
    ({ addr := 0xE000EDBB#32, ctrl := 0b010000#32, data := 0#32 }, .mpuRasrA3Read 0xE000EDBB#32 .byte true)]

theorem test_decode_reads : ∀ w ∈ readWords, decode w.1 = .instr w.2 := by decide

/-- The writes: the same with 1 at [3] and the data word. -/
def writeWords : List (Packet × Instr) :=
  [({ addr := 0xE000ED90#32, ctrl := 0b001000#32, data := 0#32 }, .mpuTypeWrite 0xE000ED90#32 .word true 0#32),
    ({ addr := 0xE000ED94#32, ctrl := 0b001100#32, data := 5#32 }, .mpuCtrlWrite 0xE000ED94#32 .word false 5#32),
    ({ addr := 0xE000ED98#32, ctrl := 0b001000#32, data := 7#32 }, .mpuRnrWrite 0xE000ED98#32 .word true 7#32),
    ({ addr := 0xE000ED9C#32, ctrl := 0b001000#32, data := 0x20000011#32 },
      .mpuRbarWrite 0xE000ED9C#32 .word true 0x20000011#32),
    ({ addr := 0xE000EDA2#32, ctrl := 0b101000#32, data := 0x130B#32 },
      .mpuRasrWrite 0xE000EDA2#32 .half true 0x130B#32),
    ({ addr := 0xE000EDA4#32, ctrl := 0b001000#32, data := 1#32 }, .mpuRbarA1Write 0xE000EDA4#32 .word true 1#32)] ++
  [({ addr := 0xE000EDA8#32, ctrl := 0b001000#32, data := 2#32 }, .mpuRasrA1Write 0xE000EDA8#32 .word true 2#32),
    ({ addr := 0xE000EDAC#32, ctrl := 0b001000#32, data := 3#32 }, .mpuRbarA2Write 0xE000EDAC#32 .word true 3#32),
    ({ addr := 0xE000EDB0#32, ctrl := 0b001000#32, data := 4#32 }, .mpuRasrA2Write 0xE000EDB0#32 .word true 4#32),
    ({ addr := 0xE000EDB4#32, ctrl := 0b001000#32, data := 5#32 }, .mpuRbarA3Write 0xE000EDB4#32 .word true 5#32),
    ({ addr := 0xE000EDB8#32, ctrl := 0b001000#32, data := 6#32 }, .mpuRasrA3Write 0xE000EDB8#32 .word true 6#32)]

theorem test_decode_writes : ∀ w ∈ writeWords, decode w.1 = .instr w.2 := by decide

/-- The checks (kind at [5:4], negprio at [3], unprivileged at [2], format 1), the events and reset. -/
def otherWords : List (Packet × Instr) :=
  [({ addr := 0x20000000#32, ctrl := 0b000101#32, data := 3#32 }, .checkRead 0x20000000#32 3#32 false false),
    ({ addr := 0x20000000#32, ctrl := 0b011001#32, data := 0#32 }, .checkWrite 0x20000000#32 0#32 true true),
    ({ addr := 0x00000100#32, ctrl := 0b100001#32, data := 1#32 }, .checkFetch 0x00000100#32 1#32 true false),
    ({ addr := 0x0000000C#32, ctrl := 0b111001#32, data := 0#32 }, .checkVector 0x0000000C#32 true true),
    ({ addr := 0#32, ctrl := 0b000010#32, data := 0#32 }, .evtDsb),
    ({ addr := 0#32, ctrl := 0b010010#32, data := 0#32 }, .evtIsb),
    ({ addr := 0#32, ctrl := 0b100010#32, data := 0#32 }, .evtExcEntry),
    ({ addr := 0#32, ctrl := 0b110010#32, data := 0#32 }, .evtExcReturn),
    ({ addr := 0#32, ctrl := 0b000011#32, data := 0#32 }, .reset)]

theorem test_decode_others : ∀ w ∈ otherWords, decode w.1 = .instr w.2 := by decide

/-- What encodes no operation is refused by name: an address outside the block, the fourth size code, a bit the format
has no field for. -/
theorem test_decode_rejects :
    decode { addr := 0xE000ED8C#32, ctrl := 0#32, data := 0#32 } = .rejected .notAnMpuRegister ∧
      decode { addr := 0xE000ED94#32, ctrl := 0b110000#32, data := 0#32 } = .rejected .badSize ∧
      decode { addr := 0xE000ED94#32, ctrl := 0b1000000#32, data := 0#32 } = .rejected .unusedBits ∧
      decode { addr := 0xE000ED94#32, ctrl := 0#32, data := 1#32 } = .rejected .unusedBits ∧
      decode { addr := 0#32, ctrl := 0b110001#32, data := 1#32 } = .rejected .unusedBits ∧
      decode { addr := 4#32, ctrl := 0b000010#32, data := 0#32 } = .rejected .unusedBits ∧
      decode { addr := 0#32, ctrl := 0b010011#32, data := 0#32 } = .rejected .unusedBits := by decide

/-- The table's word of MPU_RNR is its address (R81) and decodes to the privileged word read; the step runs it. -/
theorem test_decodeTableWord : decodeTableWord 32 0xE000ED98 = some (.mpuRnrRead 0xE000ED98#32 .word true) := by
  decide

theorem test_withFetchWord :
    stepOf (State.reset.withFetchWord 32 0xE000ED94) =
      some { State.reset with reply := .value 0#32 } := by decide

/-! ### Register operations -/

/-- E1. -/
theorem test_type_read : replyAfter [.mpuTypeRead 0xE000ED90#32 .word true] State.reset =
    some (.value 0x00000800#32) := by decide

/-- V2 step 8. -/
theorem test_type_write : refusalOf (.mpuTypeWrite 0xE000ED90#32 .word true 0#32) State.reset = some (.unpredictable .writeToReadOnly) := by decide

/-- V2 steps 38 to 41. -/
theorem test_ctrl_write_read :
    replyAfter [.mpuCtrlWrite 0xE000ED94#32 .word true 4#32, .mpuCtrlWrite 0xE000ED94#32 .word true 7#32,
      .mpuCtrlRead 0xE000ED94#32 .word true] State.reset = some (.value 7#32) := by decide

/-- V2 step 35 and V4 step 7. -/
theorem test_ctrl_write_hfnmena :
    refusalOf (.mpuCtrlWrite 0xE000ED94#32 .word true 2#32) State.reset = some (.unpredictable .hfnmenaWithoutEnable) ∧
      refusalOf (.mpuCtrlWrite 0xE000ED94#32 .word true 0xFFFFFFFE#32) (ignoring State.reset) = some (.unpredictable .hfnmenaWithoutEnable) := by decide

/-- V2 steps 11, 12. -/
theorem test_rnr_write_read :
    replyAfter [.mpuRnrWrite 0xE000ED98#32 .word true 7#32, .mpuRnrRead 0xE000ED98#32 .word true] State.reset =
      some (.value 7#32) := by decide

/-- V2 steps 9, 10; V3 step 2. -/
theorem test_rnr_write_bounds :
    refusalOf (.mpuRnrWrite 0xE000ED98#32 .word true 8#32) State.reset = some (.unpredictable .regionNumber) ∧
      refusalOf (.mpuRnrWrite 0xE000ED98#32 .word true 0x100#32) State.reset = some (.unpredictable .reservedBits) ∧
      replyAfter [.mpuRnrWrite 0xE000ED98#32 .word true 15#32] (resetWith .sixteen) = some .ok := by decide

/-- V2 steps 17 to 19: REGION 8 is refused, REGION 3 selects region 3. -/
theorem test_rbar_write_valid :
    refusalOf (.mpuRbarWrite 0xE000ED9C#32 .word true 0x20000018#32) State.reset = some (.unpredictable .regionNumber) ∧
      (runOps [.mpuRbarWrite 0xE000ED9C#32 .word true 0x30000013#32] State.reset).map (fun t => t.cfg.rnr) =
        some (some 3#8) := by decide

/-- E6 step 4: VALID reads 0, REGION the region number. -/
theorem test_rbar_read :
    replyAfter [.mpuRbarWrite 0xE000ED9C#32 .word true 0x00020012#32,
      .mpuRasrWrite 0xE000EDA0#32 .word true 0x0602001F#32, .mpuRbarRead 0xE000ED9C#32 .word true] State.reset =
      some (.value 0x00020002#32) := by decide

/-- V4 steps 5, 6: every reserved bit is dropped. -/
theorem test_rasr_write_read_ignore :
    replyAfter [.mpuRasrWrite 0xE000EDA0#32 .word true 0xFFFFFFFF#32, .mpuRasrRead 0xE000EDA0#32 .word true]
      (ignoring (stateA 0#32)) = some (.value 0x173FFF3F#32) := by decide

/-- V2 step 6; V1: a word with bit 29 set. -/
theorem test_rasr_write_refused :
    refusalOf (.mpuRasrWrite 0xE000EDA0#32 .word true 0x0300003F#32) State.reset = some (.unpredictable .unknownState) ∧
      refusalOf (.mpuRasrWrite 0xE000EDA0#32 .word true 0x2000001F#32) (stateA 0#32) = some (.unpredictable .reservedBits) := by decide

/-- R132, R134: the examples of the alias pair 1, read back through it. -/
theorem test_alias1 :
    replyAfter [.mpuRbarA1Write 0xE000EDA4#32 .word true 0x08000011#32,
      .mpuRasrA1Write 0xE000EDA8#32 .word true 0x06020021#32, .mpuRbarA1Read 0xE000EDA4#32 .word true] State.reset =
        some (.value 0x08000001#32) ∧
      replyAfter [.mpuRasrA1Read 0xE000EDA8#32 .word true] (stateA 1#32) = some (.value 0x020C811F#32) := by decide

/-- P1 steps 5, 6, through alias pair 2. -/
theorem test_alias2 :
    replyAfter [.mpuRbarA2Write 0xE000EDAC#32 .word true 0x20000012#32,
      .mpuRasrA2Write 0xE000EDB0#32 .word true 0x110B001D#32, .mpuRbarA2Read 0xE000EDAC#32 .word true] State.reset =
        some (.value 0x20000002#32) ∧
      replyAfter [.mpuRasrA2Read 0xE000EDB0#32 .word true] (stateA 1#32) = some (.value 0x020C811F#32) := by decide

/-- P1 steps 7, 8, through alias pair 3. -/
theorem test_alias3 :
    replyAfter [.mpuRbarA3Write 0xE000EDB4#32 .word true 0x40000013#32,
      .mpuRasrA3Write 0xE000EDB8#32 .word true 0x13010039#32, .mpuRbarA3Read 0xE000EDB4#32 .word true] State.reset =
        some (.value 0x40000003#32) ∧
      replyAfter [.mpuRasrA3Read 0xE000EDB8#32 .word true] (stateA 1#32) = some (.value 0x020C811F#32) := by decide

/-- V2 steps 44, 47, 48; V3: no MPU. -/
theorem test_regPre :
    replyAfter [.mpuCtrlRead 0xE000ED94#32 .word false] State.reset = some .regPriv ∧
      refusalOf (.mpuCtrlRead 0xE000ED94#32 .half true) State.reset = some (.unpredictable .regAccessSize) ∧
      refusalOf (.mpuCtrlRead 0xE000ED94#32 .byte false) State.reset = some (.unpredictable .regAccessSize) ∧
      refusalOf (.mpuCtrlRead 0xE000ED94#32 .word true) (resetWith .absent) = some (.unpredictable .mpuAbsent) ∧
      replyAfter [.mpuTypeRead 0xE000ED90#32 .word true] (resetWith .absent) = some (.value 0#32) := by decide

/-- Configuration A with MPU_RNR = 0, after a write to read-only region 0 that faulted, no DSB since. -/
def unbarred : State :=
  { settled { cfgA 1#32 with rnr := some 0#8 } with
    accLog :=
      [{ addr := 0x1000#32, more := 0#32, kind := .write, priv := true, negprio := false,
         verdict := .memManage 0x1000#32 .write }] }

/-- V13, second table, step 3: the write that would let the logged access through is refused. -/
theorem test_outstanding_transfer :
    refusalOf (.mpuRasrWrite 0xE000EDA0#32 .word true 0x03020025#32) unbarred =
      some (.unpredictable .outstandingTransfer) := by decide

/-! ### Checks -/

/-- V8: the deciding region at the edge of region 2, and unprivileged software there. -/
theorem test_check_read :
    replyAfter [.checkRead 0x20007FFF#32 0#32 true false] (stateA 1#32) =
        some (.permit (.normal false .writeBackWRA .writeBackWRA)) ∧
      replyAfter [.checkRead 0x20007FFF#32 0#32 false false] (stateA 1#32) =
        some (.memManage 0x20007FFF#32 .read) := by decide

/-- V12: the lowest faulting byte is reported, and a straddle is refused. -/
theorem test_check_write_bytes :
    replyAfter [.checkWrite 0x2001FFFE#32 3#32 true false] (stateA 1#32) =
        some (.memManage 0x20020000#32 .write) ∧
      refusalOf (.checkWrite 0x20011FFE#32 3#32 true false) (stateA 1#32) = some (.unpredictable .straddle) := by decide

/-- R180, D12: four bytes from 0xFFFFFFFE on all fault (no region, and region 0 is read-only); the lowest address among
them is 0, that of the third. -/
theorem test_check_wraps :
    replyAfter [.checkWrite 0xFFFFFFFE#32 3#32 true false] (stateA 1#32) =
      some (.memManage 0x00000000#32 .write) := by decide

/-- V8: subregion 1 of region 4 is executable, the System Control Space never. -/
theorem test_check_fetch :
    replyAfter [.checkFetch 0x20012000#32 0#32 false false] (stateA 1#32) =
        some (.permit (.normal true .nonCacheable .nonCacheable)) ∧
      replyAfter [.checkFetch 0xE000E010#32 0#32 true true] (stateA 1#32) =
        some (.memManage 0xE000E010#32 .fetch) := by decide

/-- V8, last line: every vector read is permitted with the default map's attributes. -/
theorem test_check_vector :
    exec (.checkVector 0x60000000#32 false false) (stateA 1#32) =
      .next { stateA 1#32 with reply := .permit (Config.defaultMap 0x60000000#32).attr } := rfl

/-- V11: an extra region with AP = 0b100 spoils an access elsewhere, and not one to the System Control Space. -/
theorem test_ill_formed :
    refusalOf (.checkRead 0x10000000#32 0#32 true false) (settled (cfgWith (regionOf 0x20000011#32 0x0400001F#32))) = some (.unpredictable .illFormedRegion) ∧
      replyAfter [.checkRead 0xE000ED94#32 0#32 true false]
        (settled (cfgWith (regionOf 0x20000011#32 0x0400001F#32))) = some (.permit .stronglyOrdered) := by decide

/-! ### Events and reset -/

/-- R69's example: after MPU_CTRL.write(5) from reset, DSB collapses the data window alone. -/
theorem test_dsb :
    (runOps [.mpuCtrlWrite 0xE000ED94#32 .word true 5#32, .evtDsb] State.reset).map
        (fun t => (t.winData.length, t.winFetch.length, t.dsbDone)) = some (1, 2, true) := by decide

/-- R70's example, and an ISB without the DSB. -/
theorem test_isb :
    (runOps [.mpuCtrlWrite 0xE000ED94#32 .word true 5#32, .evtDsb, .evtIsb] State.reset).map
        (fun t => t.winFetch.length) = some 1 ∧
      (runOps [.mpuCtrlWrite 0xE000ED94#32 .word true 5#32, .evtIsb] State.reset).map
        (fun t => t.winFetch.length) = some 2 := by decide

/-- V13, third table: a sequence made inside a handler needs no ISB. -/
theorem test_exc_return_synchronises :
    (runOps [.evtExcEntry, .mpuCtrlWrite 0xE000ED94#32 .word true 5#32, .evtDsb, .evtExcReturn] State.reset).map
        (fun t => (t.winFetch.length, t.depth)) = some (1, 0) := by decide

/-- V13, fourth table: writes made in thread code. -/
theorem test_exc_return_thread :
    (runOps [.mpuCtrlWrite 0xE000ED94#32 .word true 5#32, .evtDsb, .evtExcEntry, .evtExcReturn] State.reset).map
        (fun t => (t.winFetch.length, t.depth)) = some (2, 0) := by decide

/-- V14. -/
theorem test_reset :
    replyAfter [.reset, .mpuCtrlRead 0xE000ED94#32 .word true] (stateA 7#32) = some (.value 0#32) := by decide

/-- R143: an unprivileged store-multiple stops at its first word. -/
theorem test_store_multiple :
    stepOf { State.reset with pending := [storeMultiple 0xE000ED98#32 false 1#32 [0x10000#32]] } =
      some { State.reset with reply := .regPriv } := by decide

/-! ### Witnesses: states and operands that meet the hypotheses of each obligation -/

/-- A state in mid-sequence: two configurations in each window, an access logged, a burst issued. -/
def busy : State :=
  { stateA 1#32 with
    cfg := { cfgA 1#32 with rnr := some 0#8 }
    winData := [cfgA 1#32, { cfgA 1#32 with rnr := some 0#8 }]
    winFetch := [cfgA 1#32, { cfgA 1#32 with rnr := some 0#8 }]
    accLog := unbarred.accLog
    dsbDone := false
    inHandlerOnly := false
    pending := [{ head := encode .evtDsb, rest := [encode .evtIsb] }] }

theorem witness_StepKeepsInvariant : busy.Inv ∧ (stepOf busy).isSome = true ∧ stepOf busy ≠ some busy := by decide

theorem witness_DecodeEncode :
    (Instr.mpuRasrA3Write 0xE000EDBB#32 .byte false 0xFFFFFFFF#32).wellFormed = true ∧
      (Instr.checkFetch 0xFFFFFFFF#32 0xFFFFFFFF#32 false true).wellFormed = true := by decide

theorem witness_EncodeDecode :
    decode { addr := 0xE000EDBB#32, ctrl := 0b011100#32, data := 0xFFFFFFFF#32 } =
      .instr (.mpuRasrA3Write 0xE000EDBB#32 .byte false 0xFFFFFFFF#32) := by decide

/-- Nothing issued; one operation that completes; a burst whose first operation completes, faults by its reply, stops
with a fault (an MPU_RNR of no region), and is refused. -/
theorem witness_StepRunsDecoded :
    State.reset.pending = [] ∧ decode (encode .evtDsb) = .instr .evtDsb ∧
      (stepOf (sending State.reset (encode .evtDsb))).isSome = true ∧
      busy.pending = [{ head := encode .evtDsb, rest := [encode .evtIsb] }] ∧
      replyAfter [.mpuCtrlWrite 0xE000ED94#32 .word false 0#32] State.reset = some .regPriv ∧
      refusalOf (.mpuTypeWrite 0xE000ED90#32 .word true 0#32) State.reset =
        some (.unpredictable .writeToReadOnly) := by decide

/-- A state no run reaches: MPU_RNR holds 8 on an MPU of eight regions. -/
def stray : State := settled { cfgA 1#32 with rnr := some 8#8 }

theorem witness_StepRunsDecoded_fault :
    exec (.mpuRasrRead 0xE000EDA0#32 .word true) stray = .fault (.noSuchRegion 8#8) := rfl

theorem witness_StrayRegionNumberStops :
    stray.cfg.rnr = some 8#8 ∧ stray.impl.nregions.count ≤ (8#8).toNat ∧ stray.impl.nregions ≠ .absent ∧
      Accepted 0xE000ED9C#32 .word true ∧ (0x2000000F#32 : Word).getLsbD 4 = false ∧
      (0x130B001F#32 : Word) &&& rasrReserved = 0#32 := by decide

theorem witness_RasrWordRoundTrip : (0x173FFF3F#32 : Word) &&& rasrReserved = 0#32 := by decide

theorem witness_RegisterWordsRoundTrip :
    (7#32 : Word) &&& ctrlReserved = 0#32 ∧ (0xFF#32 : Word) &&& rnrReserved = 0#32 := by decide

/-- For all register statements: an accepted access; one of another size, a misaligned one, an unprivileged one; an MPU
that is absent and one that is there. -/
theorem witness_register_access :
    Accepted 0xE000ED94#32 .word true ∧ Size.half ≠ .word ∧ (0xE000ED95#32 : Word).toNat % 4 ≠ 0 ∧
      (0xE000ED94#32 : Word).toNat % 4 = 0 ∧ (resetWith .absent).impl.nregions = .absent ∧
      State.reset.impl.nregions ≠ .absent ∧ (resetWith .sixteen).impl.nregions ≠ .absent := by decide

/-- For the statements of register writes: a write that changes nothing, one that disturbs no logged access, and one
that disturbs one. -/
theorem witness_writes :
    unbarred.Undisturbed { unbarred.cfg with rnr := some 7#8 } ∧
      unbarred.cfg.withRasr 0 0x03020025#32 ≠ unbarred.cfg ∧
      ¬ unbarred.Undisturbed (unbarred.cfg.withRasr 0 0x03020025#32) := by decide

theorem witness_RegisterAccess :
    Accepted 0xE000ED94#32 .word true ∧ (resetWith .absent).impl.nregions = .absent ∧ Reg.ctrl ≠ .type ∧
      Reg.rasrA3.holds 0xE000EDBB#32 = true := by decide

theorem witness_WriteReadsBack :
    (0xE000EDB0#32 : Word).toNat % 4 = 0 ∧
      (runOps [.mpuCtrlWrite 0xE000ED94#32 .word true 7#32] State.reset).isSome = true ∧
      (runOps [.mpuRnrWrite 0xE000ED98#32 .word true 7#32] State.reset).isSome = true ∧
      (stateA 1#32).cfg.region.length = (stateA 1#32).impl.nregions.count ∧
      (0x20000013#32 : Word).getLsbD 4 = true ∧ (0x20000013#32 : Word).toNat % 16 = 3 ∧
      (runOps [.mpuRbarA2Write 0xE000EDAC#32 .word true 0x20000013#32] (stateA 1#32)).isSome = true ∧
      (0x2001000F#32 : Word).getLsbD 4 = false ∧ (stateA 1#32).cfg.rnr.map BitVec.toNat = some 4 ∧
      (runOps [.mpuRbarWrite 0xE000ED9C#32 .word true 0x2001000F#32] (stateA 1#32)).isSome = true ∧
      ((stateA 1#32).cfg.regionAt 4).attr.map (fun a => sizeLog a.size) = some 16 ∧
      (runOps [.mpuRasrA1Write 0xE000EDA8#32 .word true 0x173FFF3F#32] (stateA 1#32)).isSome = true := by decide

theorem witness_MpuCtrlWrite :
    State.reset.impl.reservedPolicy = .refuse ∧ 8 ≤ (8#32 : Word).toNat ∧ (7#32 : Word).toNat < 8 ∧
      (ignoring State.reset).impl.reservedPolicy = .ignore ∧
      (2#32 : Word).getLsbD 0 = false ∧ (2#32 : Word).getLsbD 1 = true ∧ (7#32 : Word).getLsbD 0 = true ∧
      (4#32 : Word).getLsbD 1 = false := by decide

theorem witness_MpuRnrRead : (stateA 1#32).cfg.rnr = some 4#8 ∧ State.reset.cfg.rnr = none := by decide

theorem witness_MpuRnrWrite :
    State.reset.impl.reservedPolicy = .refuse ∧ 256 ≤ (256#32 : Word).toNat ∧ (255#32 : Word).toNat < 256 ∧
      State.reset.impl.nregions.count ≤ (8#32 : Word).toNat % 256 ∧
      (7#32 : Word).toNat % 256 < State.reset.impl.nregions.count ∧
      (15#32 : Word).toNat % 256 < (resetWith .sixteen).impl.nregions.count := by decide

theorem witness_MpuRbarRead :
    (stateA 1#32).cfg.rnr = some 4#8 ∧ (4#8).toNat < (stateA 1#32).impl.nregions.count ∧
      State.reset.cfg.rnr = none := by decide

theorem witness_MpuRbarWrite :
    (0x20000018#32 : Word).getLsbD 4 = true ∧
      State.reset.impl.nregions.count ≤ (0x20000018#32 : Word).toNat % 16 ∧
      (0x20000017#32 : Word).getLsbD 4 = true ∧
      (0x20000017#32 : Word).toNat % 16 < State.reset.impl.nregions.count ∧
      (0x2000000F#32 : Word).getLsbD 4 = false ∧ State.reset.cfg.rnr = none ∧
      (stateA 1#32).cfg.rnr = some 4#8 ∧ (4#8).toNat < (stateA 1#32).impl.nregions.count := by decide

theorem witness_MpuRasrRead :
    (stateA 1#32).cfg.rnr = some 4#8 ∧ (4#8).toNat < (stateA 1#32).impl.nregions.count ∧
      ((stateA 1#32).cfg.regionAt 4).attr = some (attrOfRasr 0x020C811F#32) ∧ State.reset.cfg.rnr = none := by decide

theorem witness_MpuRasrWrite :
    (stateA 1#32).impl.reservedPolicy = .refuse ∧ (0x0000005F#32 : Word) &&& 0xE8C000C0#32 ≠ 0#32 ∧
      (0x173FFF3F#32 : Word) &&& 0xE8C000C0#32 = 0#32 ∧ (ignoring State.reset).impl.reservedPolicy = .ignore ∧
      State.reset.cfg.rnr = none ∧ (stateA 1#32).cfg.rnr = some 4#8 := by decide

theorem witness_RepeatedWrite :
    (Instr.mpuRbarA1Write 0xE000EDA4#32 .word true 0x08000011#32).isRegWrite ∧
      (runOps [.mpuRbarA1Write 0xE000EDA4#32 .word true 0x08000011#32] State.reset).isSome = true := by decide

/-- A completed write of each register; for MPU_RBAR with VALID 1 (region 7 of 8) and with VALID 0 (region 4, which
MPU_RNR selects); and of MPU_TYPE the one there is, which faults. -/
theorem witness_WriteTouchesOneRegion :
    (runOps [.mpuTypeWrite 0xE000ED90#32 .word false 0#32] (stateA 1#32)).isSome = true ∧
      (runOps [.mpuCtrlWrite 0xE000ED94#32 .word true 5#32] (stateA 1#32)).isSome = true ∧
      (runOps [.mpuRnrWrite 0xE000ED98#32 .word true 7#32] (stateA 1#32)).isSome = true ∧
      validOfRbar 0x20000017#32 = true ∧
      (runOps [.mpuRbarA3Write 0xE000EDB4#32 .word true 0x20000017#32] (stateA 1#32)).isSome = true ∧
      validOfRbar 0x20000007#32 = false ∧
      (runOps [.mpuRbarWrite 0xE000ED9C#32 .word true 0x20000007#32] (stateA 1#32)).isSome = true ∧
      (runOps [.mpuRasrWrite 0xE000EDA0#32 .word true 0x130B001F#32] (stateA 1#32)).isSome = true ∧
      (stateA 1#32).cfg.rnr.map BitVec.toNat = some 4 ∧ (stateA 1#32).cfg.rnr.map BitVec.toNat ≠ some 7 := by decide

/-- One pair of verdicts for each clause, from logged accesses of configuration A with MPU_CTRL = 1: the write to
read-only region 0 that faulted, judged by the same configuration, by one that lets it through and by an ill-formed one;
and a read that was permitted, judged with its own attributes, with others, and by no region. -/
theorem witness_DisturbedAccesses :
    judge paramsT (cfgA 1#32) 0x1000#32 0 .write true false = .memManage 0x1000#32 .write ∧
      judge paramsT ((cfgA 1#32).withRasr 0 0x03020025#32) 0x1000#32 0 .write true false =
        .permit (.normal false .writeThroughNoWA .writeThroughNoWA) ∧
      judge paramsT ((cfgA 1#32).withRasr 0 0x04020025#32) 0x1000#32 0 .write true false =
        .unpredictable .illFormedRegion ∧
      judge paramsT (cfgA 1#32) 0x1000#32 0 .read true false =
        .permit (.normal false .writeThroughNoWA .writeThroughNoWA) ∧
      judge paramsT ((cfgA 1#32).withRasr 0 0x06000025#32) 0x1000#32 0 .read true false =
        .permit .stronglyOrdered ∧
      judge paramsT ((cfgA 1#32).withRasr 0 0x06020024#32) 0x1000#32 0 .read true false =
        .memManage 0x1000#32 .read := by decide

/-- E5: the store-multiple of three words to MPU_RNR, and an unprivileged one. -/
theorem witness_StoreMultiple :
    ({ State.reset with pending := [storeMultiple Reg.rnr.addr true 1#32 [0x00010000#32, 0x0602001F#32]] }).pending =
        [storeMultiple Reg.rnr.addr true 1#32 [0x00010000#32, 0x0602001F#32]] ∧
      (runOps [writeOf .rnr Reg.rnr.addr .word true 1#32] State.reset).isSome = true ∧
      ({ State.reset with pending := [storeMultiple Reg.rnr.addr false 1#32 []] }).pending =
        [storeMultiple Reg.rnr.addr false 1#32 []] := by decide

theorem witness_EvtIsb : State.reset.dsbDone = true ∧ busy.dsbDone = false := by decide

theorem witness_EvtExcReturn :
    1 ≤ State.reset.enterException.depth ∧ State.reset.enterException.dsbDone = true ∧
      State.reset.enterException.inHandlerOnly = true ∧ State.reset.depth = 0 ∧ busy.dsbDone = false ∧
      busy.inHandlerOnly = false := by decide

theorem witness_HandlerSequenceSynchronises :
    State.reset.inHandlerOnly = true ∧
      (∀ i ∈ [Instr.mpuCtrlWrite 0xE000ED94#32 .word true 5#32],
        i ≠ .evtExcEntry ∧ i ≠ .evtExcReturn ∧ i ≠ .reset) ∧
      (runOps [.evtExcEntry, .mpuCtrlWrite 0xE000ED94#32 .word true 5#32] State.reset).isSome = true := by decide

theorem witness_WindowsShrinkOnlyAtBarriers :
    (runOps [.mpuRnrRead 0xE000ED98#32 .word true] busy).isSome = true ∧ Instr.evtIsb ≠ .evtDsb ∧
      (runOps [.evtDsb] busy).isSome = true ∧ busy.winData.length = 2 := by decide

theorem witness_CheckUsesWindow : busy.cfg ∈ busy.winData ∧ busy.cfg ∈ busy.winFetch := by decide

/-- The first and the last address region 4 decides, and one where region 1 does (V8). -/
theorem witness_RegionDecides :
    (stateA 1#32).Synchronised ∧ InEffect (stateA 1#32).params (stateA 1#32).cfg 0x20012000#32 false ∧
      (stateA 1#32).cfg.WellFormed (stateA 1#32).impl.basePolicy ∧
      decidingRegion 0x20012000#32 (stateA 1#32).cfg.region = some (regionOf 0x20010014#32 0x020C811F#32) ∧
      attrOf Config.impdefAttr 0b001#3 false false true = some (.normal true .nonCacheable .nonCacheable) ∧
      (attrOfRasr 0x020C811F#32).tex = 0b001#3 ∧ (attrOfRasr 0x020C811F#32).xn = false ∧
      (attrOfRasr 0x130B0021#32).xn = true := by decide

theorem witness_RegionDecides_number : Decides (cfgA 1#32) 0x20012000#32 4 (regionOf 0x20010014#32 0x020C811F#32) := by
  refine ⟨by decide, by decide, fun m r' hm h => ?_⟩
  match m, hm, h with
  | 5, _, h => cases h; decide
  | 6, _, h => cases h; decide
  | 7, _, h => cases h; decide
  | n + 8, _, h => cases h

/-- Region 4 gives privileged software read and write, unprivileged software read only (AP = 0b010). -/
theorem witness_RegionDecides_permissions :
    allowedByAP 0b010#3 false .read ∧ ¬ allowedByAP 0b000#3 true .read ∧ allowedByAP 0b010#3 true .write ∧
      ¬ allowedByAP 0b010#3 false .write ∧ allowedByAP 0b010#3 false .fetch ∧ ¬ allowedByAP 0b000#3 true .fetch := by
  simp [allowedByAP]

/-- The first and last byte of the register block and of the model's default System Control Space. -/
theorem witness_SystemControlSpace :
    inSCS State.reset.impl.scs 0xE000ED90#32 = true ∧ inSCS State.reset.impl.scs 0xE000EDBB#32 = true ∧
      inSCS [] 0xE000EDBB#32 = true ∧ inSCS State.reset.impl.scs 0xE000E000#32 = true ∧
      inSCS State.reset.impl.scs 0xE000EFFF#32 = true := by decide

theorem witness_MpuDisabled :
    (stateA 6#32).cfg.ctrl.enable = false ∧ State.reset.cfg ∈ State.reset.winData ∧
      State.reset.cfg ∈ State.reset.winFetch ∧
      (∀ c ∈ State.reset.winData, c.ctrl.enable = false) ∧ (∀ c ∈ State.reset.winFetch, c.ctrl.enable = false) ∧
      (resetWith .absent).impl.nregions = .absent ∧ inSCS State.reset.impl.scs 0xE000DFFF#32 = false ∧
      inSCS State.reset.impl.scs 0xE000F000#32 = false := by decide

theorem witness_Hfnmena :
    (cfgA 1#32).ctrl.enable = true ∧ (cfgA 1#32).ctrl.hfnmena = false ∧ Kind.write ≠ .vector ∧
      paramsT.inSCS 0x1000#32 = false ∧ (cfgA 3#32).ctrl.hfnmena = true := by decide

/-- V11, the fourth row. -/
theorem witness_IllFormedRegionRefuses :
    (settled (cfgWith (regionOf 0x20000011#32 0x0400001F#32))).Synchronised ∧
      InEffect (settled (cfgWith (regionOf 0x20000011#32 0x0400001F#32))).params
        (cfgWith (regionOf 0x20000011#32 0x0400001F#32)) 0x10000000#32 false ∧
      ¬ (cfgWith (regionOf 0x20000011#32 0x0400001F#32)).WellFormed .refuse := by decide

/-- R36 at its boundaries (V1, V5, V11): SIZE 3 and 4; SRD at SIZE 6 and 7; AP; an Unknown base and Unknown attributes;
a misaligned base under either policy; the same defects in a disabled region. -/
theorem witness_WellFormedRegions :
    (regionOf 0x20000000#32 0x03000007#32).wellFormed .refuse = false ∧
      (regionOf 0x20000000#32 0x03000009#32).wellFormed .refuse = true ∧
      (regionOf 0x20000000#32 0x0300010D#32).wellFormed .refuse = false ∧
      (regionOf 0x20000000#32 0x0300010F#32).wellFormed .refuse = true ∧
      (regionOf 0x20000000#32 0x0400001F#32).wellFormed .refuse = false ∧
      { regionOf 0#32 0x0300001F#32 with base := none }.wellFormed .refuse = false ∧
      { regionOf 0#32 0x0300001F#32 with attr := none }.wellFormed .refuse = false ∧
      (regionOf 0x00018000#32 0x0300001F#32).wellFormed .refuse = false ∧
      (regionOf 0x00018000#32 0x0300001F#32).wellFormed .mask = true ∧
      (regionOf 0x00010000#32 0x0300001F#32).wellFormed .refuse = true ∧
      (regionOf 0xFFFFFFE0#32 0x0418FF00#32).wellFormed .refuse = true ∧
      { regionOf 0#32 0#32 with base := none, attr := none }.wellFormed .refuse = true := by decide

/-- The reserved encodings of R89 and their neighbours: TEX 0b001, C 0, B 1; TEX 0b010 with B 1, with C 1; TEX 0b011. -/
theorem witness_WellFormedRegions_attributes :
    (regionOf 0#32 0x0309001F#32).wellFormed .refuse = false ∧ (regionOf 0#32 0x0308001F#32).wellFormed .refuse = true ∧
      (regionOf 0#32 0x030A001F#32).wellFormed .refuse = true ∧
      (regionOf 0#32 0x0311001F#32).wellFormed .refuse = false ∧
      (regionOf 0#32 0x0312001F#32).wellFormed .refuse = false ∧
      (regionOf 0#32 0x0313001F#32).wellFormed .refuse = false ∧
      (regionOf 0#32 0x0310001F#32).wellFormed .refuse = true ∧
      (regionOf 0#32 0x0318001F#32).wellFormed .refuse = false ∧
      (regionOf 0#32 0x031F001F#32).wellFormed .refuse = false ∧
      (regionOf 0#32 0x0320001F#32).wellFormed .refuse = true := by decide

theorem witness_HighestRegionDecides :
    decidingRegion 0x20000000#32 (cfgA 1#32).region = some (regionOf 0x20000012#32 0x110B001D#32) ∧
      decidingRegion 0x00080000#32 (cfgA 1#32).region = none := by decide

/-- SIZE = 4 and SIZE = 31, the least and the greatest; V5 rows 4 and 11. -/
theorem witness_RegionRange :
    4 ≤ (4#5).toNat ∧ 4 ≤ (31#5).toNat ∧ baseAligned (baseOfRbar 0x20000020#32) 4#5 = true ∧
      covers (baseOfRbar 0x20000020#32) 4#5 0x2000003F#32 ∧
      ¬ covers (baseOfRbar 0x20000020#32) 4#5 0x20000040#32 ∧ covers 0#27 31#5 0xFFFFFFFF#32 := by decide

/-- The first sizes without and with subregions, SIZE = 6 and SIZE = 7. -/
theorem witness_Subregions :
    4 ≤ (attrOfRasr 0x0300FF0D#32).size.toNat ∧ ¬ 7 ≤ (attrOfRasr 0x0300FF0D#32).size.toNat ∧
      7 ≤ (attrOfRasr 0x0300010F#32).size.toNat ∧
      (regionOf 0x20000100#32 0x0300010F#32).hits 0x2000011F#32 = false ∧
      (regionOf 0x20000100#32 0x0300010F#32).hits 0x20000120#32 = true := by decide

theorem witness_BackgroundRegion :
    Kind.read ≠ .vector ∧ InEffect paramsT (cfgA 5#32) 0x60000000#32 false ∧
      (cfgA 5#32).WellFormed paramsT.basePolicy ∧ (∀ r ∈ (cfgA 5#32).region, r.hits 0x60000000#32 = false) ∧
      (cfgA 5#32).ctrl.privdefena = true ∧ (cfgA 1#32).ctrl.privdefena = false := by decide

theorem witness_NoRegionEnabled :
    Kind.fetch ≠ .vector ∧
      InEffect paramsT { Cfg.reset 8 with ctrl := ctrlOfWord 5#32 } 0x100#32 false ∧
      ∀ r ∈ (Cfg.reset 8).region, r.enable = false := by decide

/-- V11, the last row against region 1 as reset left it. -/
theorem witness_DisabledRegionsDoNotMatter :
    (cfgWith (regionOf 0x20000011#32 0x0300010C#32)).ctrl = (cfgWith Region.reset).ctrl ∧
      (cfgWith (regionOf 0x20000011#32 0x0300010C#32)).region.length = (cfgWith Region.reset).region.length ∧
      (regionOf 0x20000011#32 0x0300010C#32).enable = false ∧ Region.reset.enable = false ∧
      ∀ p ∈ (cfgWith (regionOf 0x20000011#32 0x0300010C#32)).region.zip (cfgWith Region.reset).region,
        p.1 = p.2 ∨ p.1.enable = false ∧ p.2.enable = false := by decide

theorem witness_PrivilegedAtLeastUnprivileged :
    check paramsT (cfgA 1#32) 0x20012000#32 .read false false =
      .permit (.normal true .nonCacheable .nonCacheable) := by decide

/-- V12, and V11 for a byte that is unpredictable: one access for each of the four clauses. -/
theorem witness_SeveralBytes :
    (check paramsT (cfgWith (regionOf 0x20000011#32 0x0400001F#32)) (0x1000#32 + BitVec.ofNat 32 0) .read true
        false).reason?.isSome = true ∧
      ((∀ i ≤ 3, (check paramsT (cfgA 1#32) (0x2001FFFE#32 + BitVec.ofNat 32 i) .write true false).reason? = none) ∧
        check paramsT (cfgA 1#32) (0x2001FFFE#32 + BitVec.ofNat 32 2) .write true false =
          .memManage 0x20020000#32 .write ∧
        ∀ j ≤ 3, check paramsT (cfgA 1#32) (0x2001FFFE#32 + BitVec.ofNat 32 j) .write true false =
            .memManage (0x2001FFFE#32 + BitVec.ofNat 32 j) .write → 0x20020000 ≤ 0x2001FFFE + j) ∧
      (∀ i ≤ 3, check paramsT (cfgA 1#32) (0x20007FFE#32 + BitVec.ofNat 32 i) .read true false =
        .permit (.normal false .writeBackWRA .writeBackWRA)) ∧
      check paramsT (cfgA 1#32) (0x20011FFE#32 + BitVec.ofNat 32 2) .write true false =
        .permit (.normal true .nonCacheable .nonCacheable) ∧
      check paramsT (cfgA 1#32) 0x20011FFE#32 .write true false =
        .permit (.normal false .writeBackWRA .writeBackWRA) := by decide

/-- The second clause of SeveralBytes where the access passes 0xFFFFFFFF: the third byte, at address 0. -/
theorem witness_SeveralBytes_wraps :
    (∀ i ≤ 3, (check paramsT (cfgA 1#32) (0xFFFFFFFE#32 + BitVec.ofNat 32 i) .write true false).reason? = none) ∧
      check paramsT (cfgA 1#32) (0xFFFFFFFE#32 + BitVec.ofNat 32 2) .write true false = .memManage 0#32 .write ∧
      ∀ j b' l, j ≤ 3 → check paramsT (cfgA 1#32) (0xFFFFFFFE#32 + BitVec.ofNat 32 j) .write true false =
        .memManage b' l → (0#32 : Word).toNat ≤ b'.toNat :=
  ⟨by decide, by decide, fun _ _ _ _ _ => Nat.zero_le _⟩

theorem witness_MemManageOnlyFromChecks :
    replyAfter [.checkFetch 0x20008000#32 0#32 true false] (stateA 1#32) =
      some (.memManage 0x20008000#32 .fetch) := by decide

theorem witness_ConfigurationChangedOnlyByPrivilegedWrites :
    (runOps [.mpuRnrWrite 0xE000ED98#32 .word true 0#32] (stateA 1#32)).map (fun t => decide (t.cfg = cfgA 1#32)) =
      some false := by decide

theorem witness_ReadsAndRefusedAccessesChangeNothing :
    (Instr.mpuRasrRead 0xE000EDA0#32 .word true).isRegRead ∧
      (Instr.mpuCtrlWrite 0xE000ED94#32 .word false 0#32).isUnprivilegedRegAccess ∧
      (runOps [.mpuRasrRead 0xE000EDA0#32 .word true, .mpuCtrlWrite 0xE000ED94#32 .word false 0#32]
        (stateA 1#32)).isSome = true := by decide

theorem witness_ChecksChangeOnlyTheLog :
    (runOps [.checkRead 0x20012000#32 0#32 true false, .checkWrite 0x20012000#32 0#32 true false,
      .checkFetch 0x20012000#32 0#32 true false, .checkVector 0x20012000#32 true false] (stateA 1#32)).isSome =
        true := by decide

theorem witness_ParametersFixed : (runOps [.reset] busy).isSome = true := by decide

end Sys2Proof.Tests
end

/-! ## Scope: what a step carries out, and what no operation changes -/

namespace Sys2Proof.Machine

variable {s t : State}

/-! ### A step with something issued -/

theorem step_of_pending {b : Burst} {bs : List Burst} {i : Instr} (hp : s.pending = b :: bs)
    (hd : decode b.head = .instr i) : step s = resumeAfter b.rest (exec i { s with pending := bs }) := by
  simp [step, fetch, hp, hd]

@[simp] theorem resumeAfter_nil (res : Result) : resumeAfter [] res = res := by
  cases res <;> rfl

/-- R143: the rest of a burst waits at the front of the queue, and is dropped after a fault. -/
theorem State.resume_cons (t : State) (q : Packet) (qs : List Packet) :
    t.resume (q :: qs) =
      if t.reply.isFault = true then t else { t with pending := { head := q, rest := qs } :: t.pending } := by
  by_cases hf : t.reply.isFault = true <;> simp [State.resume, hf]

/-- Settles O7, by cases on the outcome of `exec` in `resumeAfter`. -/
theorem stepRunsDecoded : Obligations.StepRunsDecoded := by
  refine ⟨fun s => step_idle, fun s p rest bs i hp hd => ?_⟩
  rw [step_of_pending hp hd]
  refine ⟨?_, ?_, ?_, ?_⟩
  · rintro rfl
    exact resumeAfter_nil _
  · rintro q qs t rfl he
    rw [he, ← State.resume_cons]
    rfl
  · intro f he
    rw [he]
    rfl
  · intro r he
    rw [he]
    rfl

/-! ### What completed writes and checks leave alone -/

theorem commit_writeFrame {c : Cfg} (h : commit s c = .next t) : WriteFrame s t := by
  obtain ⟨-, rfl⟩ | ⟨-, -, rfl⟩ := commit_next h <;> simp [WriteFrame]

/-- Concluding a check only sets the reply. -/
theorem conclude_checkFrame {v : Verdict} (h : conclude s v = .next t) :
    CheckFrame s t ∧ t.accLog = s.accLog ∧ t.draws = s.draws := by
  obtain ⟨m, -, rfl⟩ | ⟨a, k, -, rfl⟩ := conclude_next h <;> simp [CheckFrame]

theorem checkData_checkFrame {a more : Word} {k : Kind} {priv negprio : Bool}
    (h : checkData a more k priv negprio s = .next t) : CheckFrame s t ∧ t.draws = s.draws + 1 := by
  obtain ⟨hf, -, hd⟩ := conclude_checkFrame h
  exact ⟨hf, hd⟩

theorem checkFetched_checkFrame {a more : Word} {priv negprio : Bool}
    (h : checkFetched a more priv negprio s = .next t) : CheckFrame s t ∧ t.draws = s.draws + 1 := by
  obtain ⟨hf, -, hd⟩ := conclude_checkFrame h
  exact ⟨hf, hd⟩

/-! ### What every operation leaves alone -/

/-- What no operation changes: the parameters (R6) and the issued operations (log 1); and no draw is taken back
(log 6). -/
def KeepsScope (s t : State) : Prop := t.impl = s.impl ∧ t.pending = s.pending ∧ s.draws ≤ t.draws

theorem WriteFrame.keepsScope (h : WriteFrame s t) : KeepsScope s t := by
  obtain ⟨himpl, -, -, hdraws, hpending⟩ := h
  exact ⟨himpl, hpending, Nat.le_of_eq hdraws.symm⟩

theorem CheckFrame.keepsScope (h : CheckFrame s t) (hd : t.draws = s.draws + 1) : KeepsScope s t := by
  obtain ⟨himpl, -, -, -, -, -, -, hpending⟩ := h
  exact ⟨himpl, hpending, hd ▸ Nat.le_succ _⟩

theorem Effect.keepsScope {i : Instr} (h : Effect s t i) : KeepsScope s t := by
  cases h with
  | read _ w ht => obtain rfl | rfl := ht <;> simp [KeepsScope]
  | write _ c _ ht => exact (commit_writeFrame ht).keepsScope
  | checkRead a more priv negprio ht =>
    obtain ⟨hf, hd⟩ := checkData_checkFrame ht
    exact hf.keepsScope hd
  | checkWrite a more priv negprio ht =>
    obtain ⟨hf, hd⟩ := checkData_checkFrame ht
    exact hf.keepsScope hd
  | checkFetch a more priv negprio ht =>
    obtain ⟨hf, hd⟩ := checkFetched_checkFrame ht
    exact hf.keepsScope hd
  | unprivileged _ ht | checkVector _ _ _ ht | dsb ht | isb ht | excEntry ht | excReturn ht | reset ht =>
    subst ht
    simp [KeepsScope]

/-- Settles O55: each effect an operation can have keeps the parameters, the queue and the draws taken. -/
theorem parametersFixed : Obligations.ParametersFixed :=
  fun _ _ _ h => (exec_next h).keepsScope

end Sys2Proof.Machine

/-! ## State: the invariant, the state after reset, and what each register write touches -/

namespace Sys2Proof.Machine

variable {s t : State} {c : Cfg} {n : Nat}

/-! ### Configurations -/

theorem Cfg.regionAt_of_lt (h : n < c.region.length) : c.regionAt n = c.region[n] := by
  simp [Cfg.regionAt, h]

/-- Replacing a region changes no other one. -/
theorem Cfg.setRegion_getElem?_ne {r : Region} {m : Nat} (h : n ≠ m) :
    (c.setRegion n r).region[m]? = c.region[m]? := by
  simp [Cfg.setRegion, h]

/-- A property of the regions that the new region `n` shares with the old one is kept by all. -/
theorem Cfg.setRegion_map_getElem? {α : Type} {r : Region} {f : Region → α} (hf : f r = f (c.regionAt n)) (m : Nat) :
    ((c.setRegion n r).region[m]?).map f = (c.region[m]?).map f := by
  by_cases hm : n = m
  · subst hm
    by_cases hn : n < c.region.length
    · simp [Cfg.setRegion, hn, hf, Cfg.regionAt_of_lt hn]
    · simp [Cfg.setRegion, hn]
  · rw [Cfg.setRegion_getElem?_ne hm]

@[simp] theorem Cfg.withBase_ctrl (d : Word) : (c.withBase n d).ctrl = c.ctrl := rfl
@[simp] theorem Cfg.withBase_rnr (d : Word) : (c.withBase n d).rnr = c.rnr := rfl
@[simp] theorem Cfg.withBase_region_length (d : Word) : (c.withBase n d).region.length = c.region.length :=
  List.length_set

@[simp] theorem Cfg.withRasr_ctrl (d : Word) : (c.withRasr n d).ctrl = c.ctrl := rfl
@[simp] theorem Cfg.withRasr_rnr (d : Word) : (c.withRasr n d).rnr = c.rnr := rfl
@[simp] theorem Cfg.withRasr_region_length (d : Word) : (c.withRasr n d).region.length = c.region.length :=
  List.length_set

/-- A new base leaves every region's MPU_RASR fields (R128). -/
theorem Cfg.withBase_attr_enable (d : Word) (m : Nat) :
    ((c.withBase n d).region[m]?).map (fun r => (r.attr, r.enable)) =
      (c.region[m]?).map fun r => (r.attr, r.enable) :=
  Cfg.setRegion_map_getElem? (f := fun r => (r.attr, r.enable)) (by rfl) m

/-- New MPU_RASR fields leave every region's base (R130). -/
theorem Cfg.withRasr_base (d : Word) (m : Nat) :
    ((c.withRasr n d).region[m]?).map Region.base = (c.region[m]?).map Region.base :=
  Cfg.setRegion_map_getElem? (by rfl) m

theorem Cfg.mem_reset_region {r : Region} (h : r ∈ (Cfg.reset n).region) : r = Region.reset :=
  List.eq_of_mem_replicate h

/-! ### Legal configurations -/

/-- After reset every region is disabled and MPU_RNR Unknown (R31, R32). -/
theorem Cfg.reset_legal (n : Nat) : (Cfg.reset n).Legal n := by
  refine ⟨List.length_replicate, by simp [Cfg.reset], by simp [Cfg.reset], fun r hr he => ?_⟩
  rw [Cfg.mem_reset_region hr] at he
  cases he

theorem Cfg.Legal.setRegion {k : Nat} {r : Region} (h : c.Legal k) (hr : r.enable = true → r.attr.isSome = true) :
    (c.setRegion n r).Legal k := by
  obtain ⟨hlen, hrnr, hctrl, hreg⟩ := h
  refine ⟨by simpa [Cfg.setRegion] using hlen, hrnr, hctrl, fun r' hr' => ?_⟩
  obtain hmem | rfl := List.mem_or_eq_of_mem_set hr'
  · exact hreg r' hmem
  · exact hr

theorem Cfg.Legal.withBase {k : Nat} (h : c.Legal k) (hn : n < k) (d : Word) : (c.withBase n d).Legal k := by
  refine h.setRegion ?_
  obtain ⟨rfl, -, -, hreg⟩ := h
  rw [Cfg.regionAt_of_lt hn]
  exact hreg c.region[n] (List.getElem_mem hn)

theorem Cfg.Legal.withRasr {k : Nat} (h : c.Legal k) (d : Word) : (c.withRasr n d).Legal k :=
  h.setRegion fun _ => rfl

theorem Cfg.Legal.withRnr {k : Nat} {r : BitVec 8} (h : c.Legal k) (hr : r.toNat < k) :
    Cfg.Legal k { c with rnr := some r } := by
  obtain ⟨hlen, -, hctrl, hreg⟩ := h
  exact ⟨hlen, by simpa using hr, hctrl, hreg⟩

/-- Every configuration a register write asks for is legal again (R23, R33, R124, R126, R128). -/
theorem Asks.legal (hc : Asks s c) (h : s.cfg.Legal s.impl.nregions.count) : c.Legal s.impl.nregions.count := by
  cases hc with
  | ctrl d hd =>
    obtain ⟨hlen, hrnr, -, hreg⟩ := h
    exact ⟨hlen, hrnr, hd, hreg⟩
  | rnr r hr => exact h.withRnr hr
  | base k d hk => exact h.withBase hk d
  | baseValid r d hr =>
    have hz : (r.zeroExtend 8).toNat = r.toNat := BitVec.toNat_setWidth_of_le (by decide)
    exact (h.withRnr (hz ▸ hr)).withBase hr d
  | rasr k d _ => exact h.withRasr d

/-! ### What keeps the invariant -/

/-- The state after the reset operation meets the invariant, whatever the state before (R230). -/
theorem State.afterReset_inv (s : State) : s.afterReset.Inv := by
  have hl := Cfg.reset_legal s.impl.nregions.count
  exact ⟨hl, ⟨List.mem_singleton_self _, List.pairwise_singleton _ _, List.forall_mem_singleton.mpr hl⟩,
    ⟨List.pairwise_singleton _ _, List.forall_mem_singleton.mpr hl⟩, fun _ => id, fun _ => rfl, nofun⟩

/-- R65: a new configuration joins both windows. -/
theorem State.Inv.adopt (h : s.Inv) (hc : c.Legal s.impl.nregions.count) : (s.adopt c).Inv := by
  obtain ⟨-, ⟨-, hnd, hwin⟩, ⟨hfnd, hfwin⟩, hsub, -, hlog⟩ := h
  have joined {win : List Cfg} (hw : ∀ d ∈ win, d.Legal s.impl.nregions.count) :
      ∀ d ∈ addCfg win c, d.Legal s.impl.nregions.count := fun d hd =>
    (mem_addCfg.mp hd).elim (hw d) fun he => he ▸ hc
  exact ⟨hc, ⟨mem_addCfg.mpr (.inr rfl), addCfg_nodup hnd, joined hwin⟩, ⟨addCfg_nodup hfnd, joined hfwin⟩,
    fun d hd => mem_addCfg.mpr ((mem_addCfg.mp hd).imp_left (hsub d)), nofun, hlog⟩

/-- A completed register write keeps the invariant. -/
theorem State.Inv.commit (h : s.Inv) (hc : Asks s c) (ht : commit s c = .next t) : t.Inv := by
  obtain ⟨-, rfl⟩ | ⟨-, -, rfl⟩ := commit_next ht
  · exact h
  · exact h.adopt (hc.legal h.1)

/-- A concluded check had a verdict that is no refusal. -/
theorem conclude_reason {v : Verdict} (h : conclude s v = .next t) : v.reason? = none := by
  obtain ⟨m, rfl, -⟩ | ⟨a, k, rfl, -⟩ := conclude_next h <;> rfl

theorem State.Inv.conclude {v : Verdict} (h : s.Inv) (ht : conclude s v = .next t) : t.Inv := by
  obtain ⟨m, -, rfl⟩ | ⟨a, k, -, rfl⟩ := conclude_next ht <;> exact h

/-- R64: a data access with a verdict joins the log. -/
theorem State.Inv.checkData {a more : Word} {k : Kind} {priv negprio : Bool} (h : s.Inv)
    (hk : k = .read ∨ k = .write) (ht : checkData a more k priv negprio s = .next t) : t.Inv := by
  refine State.Inv.conclude ?_ ht
  obtain ⟨hcfg, hdata, hfetch, hsub, hdsb, hlog⟩ := h
  refine ⟨hcfg, hdata, hfetch, hsub, hdsb, fun e he => ?_⟩
  obtain he | he := List.mem_append.mp he
  · exact hlog e he
  · rw [List.mem_singleton.mp he]
    exact ⟨hk, conclude_reason ht⟩

/-- R69: the data window shrinks to the current configuration, which the fetch window still holds. -/
theorem State.Inv.dsb (h : s.Inv) : s.dsb.Inv := by
  obtain ⟨hcfg, ⟨hmem, -, -⟩, hfetch, hsub, -, -⟩ := h
  exact ⟨hcfg, ⟨List.mem_singleton_self _, List.pairwise_singleton _ _, List.forall_mem_singleton.mpr hcfg⟩, hfetch,
    List.forall_mem_singleton.mpr (hsub _ hmem), fun _ => rfl, nofun⟩

/-- After a DSB the fetch window may shrink to the current configuration, since the data window has (R66). -/
theorem State.Inv.shrinkFetch (h : s.Inv) (hd : s.dsbDone = true) : State.Inv { s with winFetch := [s.cfg] } := by
  obtain ⟨hcfg, hdata, -, -, hdsb, hlog⟩ := h
  exact ⟨hcfg, hdata, ⟨List.pairwise_singleton _ _, List.forall_mem_singleton.mpr hcfg⟩, fun _ hc => hdsb hd ▸ hc, hdsb,
    hlog⟩

theorem State.Inv.isb (h : s.Inv) : s.isb.Inv := by
  by_cases hd : s.dsbDone = true
  · simpa [State.Inv, hd] using h.shrinkFetch hd
  · simpa [State.Inv, hd] using h

theorem State.Inv.returnException (h : s.Inv) : s.returnException.Inv := by
  by_cases hd : 1 ≤ s.depth ∧ s.dsbDone = true ∧ s.inHandlerOnly = true
  · simpa [State.Inv, hd] using h.shrinkFetch hd.2.1
  · simpa only [State.Inv, State.returnException, if_neg hd] using h

/-- Each effect an operation can have keeps the invariant. -/
theorem Effect.keepsInv {i : Instr} (he : Effect s t i) (h : s.Inv) : t.Inv := by
  cases he with
  | unprivileged _ ht => exact ht ▸ h
  | read _ w ht => obtain rfl | rfl := ht <;> exact h
  | write _ c hc ht => exact h.commit hc ht
  | checkRead a more priv negprio ht => exact h.checkData (.inl rfl) ht
  | checkWrite a more priv negprio ht => exact h.checkData (.inr rfl) ht
  | checkFetch a more priv negprio ht => exact State.Inv.conclude (s := s.drawn) h ht
  | checkVector a priv negprio ht => exact ht ▸ h
  | dsb ht => exact ht ▸ h.dsb
  | isb ht => exact ht ▸ h.isb
  | excEntry ht => exact ht ▸ h
  | excReturn ht => exact ht ▸ h.returnException
  | reset ht => exact ht ▸ s.afterReset_inv

/-- Settles O4: a step is idle or has the effect of one operation, and the queue is no part of the invariant. -/
theorem stepKeepsInvariant : Obligations.StepKeepsInvariant := by
  intro s t h hstep
  obtain ⟨-, rfl⟩ | ⟨b, bs, i, u, -, -, he, rfl⟩ := step_next hstep
  · exact h
  · exact (exec_next he).keepsInv (s := { s with pending := bs }) h

/-! ### After reset -/

/-- Settles O1: the bank holds copies of `Region.reset`, and every other field is as R31, R32 and R34 list it. -/
theorem resetState : Obligations.ResetState := by
  refine ⟨rfl, rfl, List.length_replicate, fun r hr => ?_, rfl, rfl, rfl, rfl, rfl, rfl⟩
  rw [Cfg.mem_reset_region hr]
  exact ⟨rfl, rfl, rfl⟩

/-- Settles O3: the reset operation takes the state after reset to itself. -/
theorem resetMeetsInvariant : Obligations.ResetMeetsInvariant := State.reset.afterReset_inv

/-! ### The four addresses of MPU_RBAR and of MPU_RASR are one register each (R27) -/

section addresses

variable {addr : Word} {size : Size} {priv : Bool}

theorem exec_rbarReads {p : Reg × (Word → Size → Bool → Instr)} (h : p ∈ rbarReads) :
    exec (p.2 addr size priv) s = readRbar addr size priv s := by
  simp only [rbarReads, List.mem_cons, List.not_mem_nil, or_false] at h
  obtain rfl | rfl | rfl | rfl := h <;> rfl

theorem exec_rasrReads {p : Reg × (Word → Size → Bool → Instr)} (h : p ∈ rasrReads) :
    exec (p.2 addr size priv) s = readRasr addr size priv s := by
  simp only [rasrReads, List.mem_cons, List.not_mem_nil, or_false] at h
  obtain rfl | rfl | rfl | rfl := h <;> rfl

theorem exec_rbarWrites {p : Reg × (Word → Size → Bool → Word → Instr)} {data : Word} (h : p ∈ rbarWrites) :
    exec (p.2 addr size priv data) s = writeRbar addr size priv data s := by
  simp only [rbarWrites, List.mem_cons, List.not_mem_nil, or_false] at h
  obtain rfl | rfl | rfl | rfl := h <;> rfl

theorem exec_rasrWrites {p : Reg × (Word → Size → Bool → Word → Instr)} {data : Word} (h : p ∈ rasrWrites) :
    exec (p.2 addr size priv data) s = writeRasr addr size priv data s := by
  simp only [rasrWrites, List.mem_cons, List.not_mem_nil, or_false] at h
  obtain rfl | rfl | rfl | rfl := h <;> rfl

end addresses

/-! ### A region number of no region (log 8) -/

theorem strayRnr_some {r : BitVec 8} (hr : s.cfg.rnr = some r) (h : s.impl.nregions.count ≤ r.toNat) :
    strayRnr s = some r := by
  simp [strayRnr, hr, Nat.not_lt.mpr h]

/-- Settles O23: the conditions of R120 and R144 hold, and what is behind them stops at `strayRnr`. -/
theorem strayRegionNumberStops : Obligations.StrayRegionNumberStops := by
  intro s r addr size priv hr hstray hpresent hacc
  have hs : strayRnr s = some r := strayRnr_some hr hstray
  refine ⟨fun p hp => ?_, fun p hp => ?_, fun p hp data hd => ?_, fun p hp data hd => ?_⟩
  · rw [exec_rbarReads hp, readRbar, hacc.regPrePresent_eq hpresent, hs]
  · rw [exec_rasrReads hp, readRasr, hacc.regPrePresent_eq hpresent, hs]
  · have hv : validOfRbar data = false := hd
    rw [exec_rbarWrites hp, writeRbar, hacc.regPrePresent_eq hpresent]
    simp [hv, hr, hs]
  · have hres : reservedRefused s data rasrReserved = false := by simp [reservedRefused, hd]
    rw [exec_rasrWrites hp, writeRasr, hacc.regPrePresent_eq hpresent]
    simp [hres, hr, hs]

/-! ### The configuration after a completed write -/

section writes

variable {addr : Word} {size : Size} {priv : Bool} {data : Word}

theorem commit_cfg (h : commit s c = .next t) : t.cfg = c := by
  obtain ⟨rfl, rfl⟩ | ⟨-, -, rfl⟩ := commit_next h <;> rfl

/-- R122: no write of MPU_TYPE is carried out. -/
theorem execMpuTypeWrite_cfg (h : execMpuTypeWrite addr size priv data s = .next t) : t.cfg = s.cfg := by
  obtain ⟨-, ⟨-, rfl⟩ | ⟨-, -, hg⟩⟩ := regPrePresent_next h
  · rfl
  · cases hg

/-- R124. -/
theorem execMpuCtrlWrite_cfg (h : execMpuCtrlWrite addr size priv data s = .next t) :
    t.cfg = s.cfg ∨ t.cfg = { s.cfg with ctrl := ctrlOfWord data } := by
  obtain ⟨-, ⟨-, rfl⟩ | ⟨-, -, hg⟩⟩ := regPrePresent_next h
  · exact .inl rfl
  · split at hg
    · cases hg
    · split at hg
      · cases hg
      · exact .inr (commit_cfg hg)

/-- R126. -/
theorem execMpuRnrWrite_cfg (h : execMpuRnrWrite addr size priv data s = .next t) :
    t.cfg = s.cfg ∨ t.cfg = { s.cfg with rnr := some (regionOfRnr data) } := by
  obtain ⟨-, ⟨-, rfl⟩ | ⟨-, -, hg⟩⟩ := regPrePresent_next h
  · exact .inl rfl
  · split at hg
    · cases hg
    · split at hg
      · exact .inr (commit_cfg hg)
      · cases hg

/-- R128: with VALID 1 the base of region REGION and MPU_RNR, with VALID 0 the base of the selected region. -/
theorem writeRbar_cfg (h : writeRbar addr size priv data s = .next t) :
    t.cfg = s.cfg ∨
      (validOfRbar data = true ∧ t.cfg = Cfg.withBase { s.cfg with rnr := some ((regionOfRbar data).zeroExtend 8) }
        (regionOfRbar data).toNat data) ∨
      (validOfRbar data = false ∧ ∃ r, s.cfg.rnr = some r ∧ t.cfg = s.cfg.withBase r.toNat data) := by
  obtain ⟨-, ⟨-, rfl⟩ | ⟨-, -, hg⟩⟩ := regPrePresent_next h
  · exact .inl rfl
  · right
    split at hg
    · split at hg
      · exact .inl ⟨‹_›, commit_cfg hg⟩
      · cases hg
    · split at hg
      · cases hg
      · cases hg
      · exact .inr ⟨eq_false_of_ne_true ‹_›, _, ‹_›, commit_cfg hg⟩

/-- R130: the MPU_RASR fields of the selected region. -/
theorem writeRasr_cfg (h : writeRasr addr size priv data s = .next t) :
    t.cfg = s.cfg ∨ ∃ r, s.cfg.rnr = some r ∧ t.cfg = s.cfg.withRasr r.toNat data := by
  obtain ⟨-, ⟨-, rfl⟩ | ⟨-, -, hg⟩⟩ := regPrePresent_next h
  · exact .inl rfl
  · right
    split at hg
    · cases hg
    · split at hg
      · cases hg
      · cases hg
      · exact ⟨_, ‹_›, commit_cfg hg⟩

end writes

/-- Settles O25, by the configurations each register's write can leave behind. -/
theorem writeTouchesOneRegion : Obligations.WriteTouchesOneRegion := by
  intro s t addr size priv data
  refine ⟨execMpuTypeWrite_cfg (data := data), fun h => ?_, fun h => ?_, fun p hp h => ?_, fun p hp h => ?_⟩
  · obtain hc | hc := execMpuCtrlWrite_cfg h <;> simp [hc]
  · obtain hc | hc := execMpuRnrWrite_cfg h <;> simp [hc]
  · rw [exec_rbarWrites hp] at h
    obtain hc | ⟨hv, hc⟩ | ⟨hv, r, hr, hc⟩ := writeRbar_cfg h
    · simp [hc]
    · rw [hc]
      refine ⟨by simp, by simp [hv], by simp, fun m => ⟨fun hm => ?_, Cfg.withBase_attr_enable data m⟩⟩
      exact Cfg.setRegion_getElem?_ne (by simpa [hv] using hm)
    · rw [hc]
      refine ⟨by simp, by simp, by simp, fun m => ⟨fun hm => ?_, Cfg.withBase_attr_enable data m⟩⟩
      exact Cfg.setRegion_getElem?_ne (by simpa [hv, hr] using hm)
  · rw [exec_rasrWrites hp] at h
    obtain hc | ⟨r, hr, hc⟩ := writeRasr_cfg h
    · simp [hc]
    · rw [hc]
      refine ⟨by simp, by simp, by simp, fun m => ⟨fun hm => ?_, Cfg.withRasr_base data m⟩⟩
      exact Cfg.setRegion_getElem?_ne (by simpa [hr] using hm)

/-! ### Well-formed regions (R36) -/

theorem srdLegal_iff {a : Attr} : srdLegal a = true ↔ (a.size.toNat < 7 → a.srd = 0#8) := by
  simp only [srdLegal, Bool.or_eq_true, decide_eq_true_eq, beq_iff_eq, ← Nat.not_lt, Decidable.imp_iff_not_or]

/-- Table 91 gives no meaning to four encodings and to TEX = 0b011 (R89, D10). -/
theorem attrLegal_iff {a : Attr} :
    attrLegal a = true ↔
      ¬ (a.tex = 0b001#3 ∧ a.c = false ∧ a.b = true) ∧ ¬ (a.tex = 0b010#3 ∧ a.c = false ∧ a.b = true) ∧
        ¬ (a.tex = 0b010#3 ∧ a.c = true) ∧ a.tex ≠ 0b011#3 := by
  obtain ⟨xn, ap, tex, s, c, b, srd, size⟩ := a
  simp only [attrLegal]
  revert tex s c b
  decide

/-- The ADDR bits of a base are those from N on, stored bit i being address bit i + 5 (R87). -/
theorem addrMask_getLsbD {size : BitVec 5} {i : Nat} :
    (addrMask size).getLsbD i = (decide (i < 27) && decide (sizeLog size ≤ i + 5)) := by
  rw [addrMask, BitVec.getLsbD_shiftLeft, BitVec.getLsbD_allOnes, Bool.eq_iff_iff]
  simp only [Bool.and_eq_true, Bool.not_eq_true', decide_eq_true_eq, decide_eq_false_iff_not]
  omega

theorem baseAligned_iff {b : BitVec 27} {size : BitVec 5} :
    baseAligned b size = true ↔ ∀ i, i + 5 < size.toNat + 1 → b.getLsbD i = false := by
  have bit (i : Nat) (hi : i < 27) :
      (b &&& ~~~(addrMask size)).getLsbD i = (b.getLsbD i && decide (i + 5 < sizeLog size)) := by
    simp only [BitVec.getLsbD_and, BitVec.getLsbD_not, addrMask_getLsbD, hi, decide_true, Bool.true_and, ← decide_not,
      Nat.not_le]
  rw [baseAligned, beq_iff_eq]
  constructor
  · intro h i hi
    by_cases hw : i < 27
    · have hb := bit i hw
      rw [h] at hb
      simpa [sizeLog, hi] using hb.symm
    · exact BitVec.getLsbD_of_ge b i (Nat.not_lt.mp hw)
  · intro h
    refine BitVec.eq_of_getLsbD_eq fun i hw => ?_
    rw [bit i hw]
    by_cases hi : i + 5 < sizeLog size
    · simp [h i hi]
    · simp [hi]

/-- Settles O56, by the cases of `Region.wellFormed`. -/
theorem wellFormedRegions : Obligations.WellFormedRegions := by
  intro bp r
  obtain ⟨base, attr, enable⟩ := r
  cases enable with
  | false => simp [Region.wellFormed]
  | true =>
    cases attr with
    | none => simp [Region.wellFormed]
    | some a =>
      cases base with
      | none => simp [Region.wellFormed]
      | some b =>
        cases bp <;> simp [Region.wellFormed, srdLegal_iff, attrLegal_iff, baseAligned_iff, and_assoc]

end Sys2Proof.Machine

/-! ## Memory: barriers, the windows, and what register accesses leave behind -/

namespace Sys2Proof.Machine

variable {s t : State} {c : Cfg} {n : Nat}

/-! ### Barriers and exceptions (R69 to R72) -/

/-- Settles O27: R69 is the definition of `State.dsb`. -/
theorem evtDsb : Obligations.EvtDsb := fun _ => rfl

theorem State.isb_of_dsbDone (h : s.dsbDone = true) :
    s.isb = { s with winFetch := [s.cfg], inHandlerOnly := true, reply := .ok } := by
  simp [State.isb, h]

theorem State.isb_of_not_dsbDone (h : s.dsbDone = false) : s.isb = { s with reply := .ok } := by
  simp [State.isb, h]

/-- Settles O28, by the two branches of R70. -/
theorem evtIsb : Obligations.EvtIsb := fun _ =>
  ⟨fun h => congrArg Host.Outcome.next (State.isb_of_dsbDone h),
    fun h => congrArg Host.Outcome.next (State.isb_of_not_dsbDone h)⟩

/-- Settles O29: R71 is the definition of `State.enterException`. -/
theorem evtExcEntry : Obligations.EvtExcEntry := fun _ => rfl

theorem State.returnException_of_handler (hd : 1 ≤ s.depth) (hb : s.dsbDone = true) (hh : s.inHandlerOnly = true) :
    s.returnException = { s with winFetch := [s.cfg], depth := s.depth - 1, reply := .ok } := by
  simp [State.returnException, hd, hb, hh]

theorem State.returnException_of_not_handler (h : s.depth = 0 ∨ s.dsbDone = false ∨ s.inHandlerOnly = false) :
    s.returnException = { s with depth := s.depth - 1, reply := .ok } := by
  have hn : ¬ (1 ≤ s.depth ∧ s.dsbDone = true ∧ s.inHandlerOnly = true) := by
    rintro ⟨hd, hb, hh⟩
    obtain h | h | h := h
    · omega
    · simp [hb] at h
    · simp [hh] at h
  rw [State.returnException, if_neg hn]

/-- Settles O30, by the two branches of R72. -/
theorem evtExcReturn : Obligations.EvtExcReturn := fun _ =>
  ⟨fun hd hb hh => congrArg Host.Outcome.next (State.returnException_of_handler hd hb hh),
    fun h => congrArg Host.Outcome.next (State.returnException_of_not_handler h)⟩

/-- Settles O31: the ISB finds `dsbDone`, which the DSB has just set (R66). -/
theorem barriersSynchronise : Obligations.BarriersSynchronise := fun s => ⟨s.dsb.isb, rfl, ⟨rfl, rfl⟩, rfl⟩

/-! ### The windows over all operations (R65) -/

theorem commit_windows (h : commit s c = .next t) :
    (∀ d ∈ s.winData, d ∈ t.winData) ∧ ∀ d ∈ s.winFetch, d ∈ t.winFetch := by
  obtain ⟨-, rfl⟩ | ⟨-, -, rfl⟩ := commit_next h
  · exact ⟨fun _ => id, fun _ => id⟩
  · exact ⟨fun d hd => mem_addCfg.mpr (.inl hd), fun d hd => mem_addCfg.mpr (.inl hd)⟩

theorem CheckFrame.windows (h : CheckFrame s t) :
    (∀ d ∈ s.winData, d ∈ t.winData) ∧ ∀ d ∈ s.winFetch, d ∈ t.winFetch := by
  obtain ⟨-, -, hdata, hfetch, -⟩ := h
  exact ⟨fun _ hd => hdata ▸ hd, fun _ hd => hfetch ▸ hd⟩

/-- Each effect an operation can have keeps the members of the data window unless it is a DSB's or reset's, and those
of the fetch window unless it is an ISB's, an exception return's or reset's. -/
theorem Effect.windows {i : Instr} (h : Effect s t i) :
    (i ≠ .evtDsb → i ≠ .reset → ∀ c ∈ s.winData, c ∈ t.winData) ∧
      (i ≠ .evtIsb → i ≠ .evtExcReturn → i ≠ .reset → ∀ c ∈ s.winFetch, c ∈ t.winFetch) := by
  have kept (hw : (∀ c ∈ s.winData, c ∈ t.winData) ∧ ∀ c ∈ s.winFetch, c ∈ t.winFetch) :
      (i ≠ .evtDsb → i ≠ .reset → ∀ c ∈ s.winData, c ∈ t.winData) ∧
        (i ≠ .evtIsb → i ≠ .evtExcReturn → i ≠ .reset → ∀ c ∈ s.winFetch, c ∈ t.winFetch) :=
    ⟨fun _ _ => hw.1, fun _ _ _ => hw.2⟩
  cases h with
  | read _ w ht => obtain rfl | rfl := ht <;> exact kept ⟨fun _ => id, fun _ => id⟩
  | write _ c _ ht => exact kept (commit_windows ht)
  | checkRead a more priv negprio ht => exact kept (CheckFrame.windows (checkData_checkFrame ht).1)
  | checkWrite a more priv negprio ht => exact kept (CheckFrame.windows (checkData_checkFrame ht).1)
  | checkFetch a more priv negprio ht => exact kept (CheckFrame.windows (checkFetched_checkFrame ht).1)
  | unprivileged _ ht | checkVector _ _ _ ht | excEntry ht => subst ht; exact kept ⟨fun _ => id, fun _ => id⟩
  | dsb ht => exact ht ▸ ⟨fun h => absurd rfl h, fun _ _ _ _ => id⟩
  | isb ht => exact ht ▸ ⟨fun _ _ _ => id, fun h => absurd rfl h⟩
  | excReturn ht => exact ht ▸ ⟨fun _ _ _ => id, fun _ h => absurd rfl h⟩
  | reset => exact ⟨fun _ h => absurd rfl h, fun _ _ h => absurd rfl h⟩

/-- Settles O33: only DSB, ISB, exception return and reset have an effect that shrinks a window. -/
theorem windowsShrinkOnlyAtBarriers : Obligations.WindowsShrinkOnlyAtBarriers :=
  fun _ _ _ h => (exec_next h).windows

/-! ### Runs of operations -/

theorem runOps_cons {i : Instr} {is : List Instr} (h : runOps (i :: is) s = some t) :
    ∃ u, exec i s = .next u ∧ runOps is u = some t := by
  rw [runOps] at h
  split at h
  · exact ⟨_, ‹_›, h⟩
  · cases h
  · cases h

/-- What each operation of a list keeps, the run of the list keeps. -/
theorem runOps_keeps {P : State → Prop} {is : List Instr}
    (hstep : ∀ i ∈ is, ∀ s t, exec i s = .next t → P s → P t) (h : runOps is s = some t) (hs : P s) : P t := by
  induction is generalizing s with
  | nil => cases h; exact hs
  | cons i is ih =>
    obtain ⟨u, hu, hrun⟩ := runOps_cons h
    exact ih (fun j hj => hstep j (List.mem_cons_of_mem _ hj)) hrun (hstep i List.mem_cons_self s u hu hs)

/-! ### A programming sequence inside a handler (R66) -/

/-- In a handler entered at depth `n`, every change of `cfg` in question having been made in a handler (R65). -/
def State.InHandler (n : Nat) (s : State) : Prop := s.depth = n + 1 ∧ s.inHandlerOnly = true

theorem State.InHandler.commit (h : s.InHandler n) (ht : commit s c = .next t) : t.InHandler n := by
  obtain ⟨hd, hh⟩ := h
  obtain ⟨-, rfl⟩ | ⟨-, -, rfl⟩ := commit_next ht <;> simp [State.InHandler, hd, hh]

theorem State.InHandler.check (h : s.InHandler n) (ht : CheckFrame s t) : t.InHandler n := by
  obtain ⟨-, -, -, -, -, hdepth, honly, -⟩ := ht
  exact ⟨hdepth.trans h.1, honly.trans h.2⟩

/-- Only exception entry and return and reset leave the handler or enter another. -/
theorem Effect.inHandler {i : Instr} (he : Effect s t i) (hi : i ≠ .evtExcEntry ∧ i ≠ .evtExcReturn ∧ i ≠ .reset)
    (h : s.InHandler n) : t.InHandler n := by
  obtain ⟨hentry, hreturn, hreset⟩ := hi
  cases he with
  | read _ w ht => obtain rfl | rfl := ht <;> exact h
  | write _ c _ ht => exact h.commit ht
  | checkRead a more priv negprio ht => exact h.check (checkData_checkFrame ht).1
  | checkWrite a more priv negprio ht => exact h.check (checkData_checkFrame ht).1
  | checkFetch a more priv negprio ht => exact h.check (checkFetched_checkFrame ht).1
  | unprivileged _ ht | checkVector _ _ _ ht | dsb ht => exact ht ▸ h
  | isb ht => subst ht; exact ⟨h.1, by simp [h.2]⟩
  | excEntry => exact absurd rfl hentry
  | excReturn => exact absurd rfl hreturn
  | reset => exact absurd rfl hreset

/-- Settles O32: the sequence stays in the handler, so the exception return after the DSB is as good as an ISB. -/
theorem handlerSequenceSynchronises : Obligations.HandlerSequenceSynchronises := by
  intro s t ops hs hops hrun
  obtain ⟨u, hu, hrun⟩ := runOps_cons hrun
  cases hu
  have hstart : s.enterException.InHandler s.depth := ⟨rfl, hs⟩
  obtain ⟨hdepth, honly⟩ : t.InHandler s.depth :=
    runOps_keeps (fun i hi s t h => (exec_next h).inHandler (hops i hi)) hrun hstart
  exact ⟨t.dsb.returnException, rfl, ⟨rfl, by simp [hdepth, honly]⟩, rfl, by simp [hdepth]⟩

/-! ### Checks and the window (R64) -/

/-- Concluding a check in a state that differs from `s` in the log and the draws alone. -/
theorem conclude_concludes {v : Verdict} (hf : CheckFrame s t) : Concludes s v t.accLog (conclude t v) := by
  cases v with
  | permit m => exact ⟨t.answer (.permit m), rfl, rfl, rfl, hf⟩
  | memManage a k => exact ⟨t.raise (.memManage a k), rfl, rfl, rfl, hf⟩
  | unpredictable r => rfl

theorem checkData_concludes {k : Kind} (hmem : s.cfg ∈ s.winData) (a more : Word) (priv negprio : Bool) :
    ∃ c ∈ s.winData, Concludes s (judge s.params c a more.toNat k priv negprio)
      (logAfter s a more k priv negprio (judge s.params c a more.toNat k priv negprio))
      (checkData a more k priv negprio s) :=
  ⟨choose s.winData s.cfg s.draws, choose_mem hmem, conclude_concludes (by simp [CheckFrame])⟩

theorem checkFetched_concludes (hmem : s.cfg ∈ s.winFetch) (a more : Word) (priv negprio : Bool) :
    ∃ c ∈ s.winFetch, Concludes s (judge s.params c a more.toNat .fetch priv negprio) s.accLog
      (checkFetched a more priv negprio s) :=
  ⟨choose s.winFetch s.cfg s.draws, choose_mem hmem, conclude_concludes (by simp [CheckFrame])⟩

/-- Settles O34: the member of the window is the one `choose` picks. -/
theorem checkUsesWindow : Obligations.CheckUsesWindow := fun _ a more priv negprio =>
  ⟨fun h => checkData_concludes h a more priv negprio, fun h => checkData_concludes h a more priv negprio,
    fun h => checkFetched_concludes h a more priv negprio⟩

/-! ### Disturbed accesses (R65) -/

/-- Settles O57: the verdict under the new configuration against the logged one, by the cases of `Verdict.differs`. -/
theorem disturbedAccesses : Obligations.DisturbedAccesses := by
  refine ⟨fun p c e => ⟨fun m m' hv he => ?_, fun m a k hv he => ?_, fun m a k hv he => ?_, fun a k a' k' hv he => ?_,
    fun r hv => ?_⟩, fun s c => ?_⟩
  · simp [Access.changed, hv, he, Verdict.differs]
  · simp [Access.changed, hv, he, Verdict.differs]
  · simp [Access.changed, hv, he, Verdict.differs]
  · simp [Access.changed, hv, he, Verdict.differs]
  · simp [Access.changed, hv, Verdict.differs]
  · simp [State.Undisturbed]

/-! ### Reads and refused privileges (R55, R202) -/

/-- Settles O53: of the effects a register access can have, only a privileged write's touches the MPU's state. -/
theorem readsAndRefusedAccessesChangeNothing : Obligations.ReadsAndRefusedAccessesChangeNothing := by
  intro i s t hi h
  cases exec_next h with
  | unprivileged _ ht => subst ht; simp [ReadFrame]
  | read _ w ht => obtain rfl | rfl := ht <;> simp [ReadFrame]
  | write hw => simp [Instr.isRegRead, Instr.isUnprivilegedRegAccess, hw] at hi
  | _ => simp [Instr.isRegRead, Instr.isUnprivilegedRegAccess, Instr.regAccess?] at hi

/-! ### Privileged writes that complete -/

section privileged

variable {addr : Word} {size : Size} {priv : Bool} {data : Word}

/-- R120, R144: an access by privileged software is let through if it is an aligned word and an MPU is present. -/
theorem regPrePresent_privileged_iff {go : Result} :
    regPrePresent addr size true s go = .next t ↔
      aligned addr size = true ∧ s.impl.nregions ≠ .absent ∧ go = .next t := by
  refine ⟨fun h => ?_, fun ⟨ha, hp, hg⟩ => (regPrePresent_accepted ha hp).trans hg⟩
  obtain ⟨ha, ⟨hp, -⟩ | ⟨-, hp, hg⟩⟩ := regPrePresent_next h
  · cases hp
  · exact ⟨ha, hp, hg⟩

/-- MPU_RNR selects region `r`, which the MPU has. -/
def Selects (s : State) (r : BitVec 8) : Prop := s.cfg.rnr = some r ∧ r.toNat < s.impl.nregions.count

theorem Selects.strayRnr_eq {r : BitVec 8} (h : Selects s r) : strayRnr s = none := by
  simp [strayRnr, h.1, h.2]

theorem Selects.shownRegion_eq {r : BitVec 8} (h : Selects s r) : shownRegion s = r.toNat := by
  simp [shownRegion, h.1]

/-- R124. -/
theorem execMpuCtrlWrite_privileged_iff :
    execMpuCtrlWrite addr size true data s = .next t ↔
      aligned addr size = true ∧ s.impl.nregions ≠ .absent ∧ reservedRefused s data ctrlReserved = false ∧
        ¬ ((ctrlOfWord data).enable = false ∧ (ctrlOfWord data).hfnmena = true) ∧
          commit s { s.cfg with ctrl := ctrlOfWord data } = .next t := by
  refine regPrePresent_privileged_iff.trans (and_congr_right' (and_congr_right' ⟨fun h => ?_, ?_⟩))
  · split at h
    · cases h
    · split at h
      · cases h
      · exact ⟨eq_false_of_ne_true ‹_›, ‹_›, h⟩
  · rintro ⟨hres, hctrl, hc⟩
    rw [hres, if_neg Bool.false_ne_true, if_neg hctrl, hc]

/-- R126. -/
theorem execMpuRnrWrite_privileged_iff :
    execMpuRnrWrite addr size true data s = .next t ↔
      aligned addr size = true ∧ s.impl.nregions ≠ .absent ∧ reservedRefused s data rnrReserved = false ∧
        (regionOfRnr data).toNat < s.impl.nregions.count ∧
          commit s { s.cfg with rnr := some (regionOfRnr data) } = .next t := by
  refine regPrePresent_privileged_iff.trans (and_congr_right' (and_congr_right' ⟨fun h => ?_, ?_⟩))
  · split at h
    · cases h
    · split at h
      · exact ⟨eq_false_of_ne_true ‹_›, ‹_›, h⟩
      · cases h
  · rintro ⟨hres, hn, hc⟩
    rw [hres, if_neg Bool.false_ne_true, if_pos hn, hc]

/-- R128 with VALID 1. -/
theorem writeRbar_valid_iff (hv : validOfRbar data = true) :
    writeRbar addr size true data s = .next t ↔
      aligned addr size = true ∧ s.impl.nregions ≠ .absent ∧ (regionOfRbar data).toNat < s.impl.nregions.count ∧
        commit s (Cfg.withBase { s.cfg with rnr := some ((regionOfRbar data).zeroExtend 8) }
          (regionOfRbar data).toNat data) = .next t := by
  refine regPrePresent_privileged_iff.trans (and_congr_right' (and_congr_right' ?_))
  rw [if_pos hv]
  constructor
  · intro h
    split at h
    · exact ⟨‹_›, h⟩
    · cases h
  · rintro ⟨hn, hc⟩
    rw [if_pos hn, hc]

/-- R128 with VALID 0. -/
theorem writeRbar_selected_iff (hv : validOfRbar data = false) :
    writeRbar addr size true data s = .next t ↔
      aligned addr size = true ∧ s.impl.nregions ≠ .absent ∧
        ∃ r, Selects s r ∧ commit s (s.cfg.withBase r.toNat data) = .next t := by
  refine regPrePresent_privileged_iff.trans (and_congr_right' (and_congr_right' ?_))
  rw [hv, if_neg Bool.false_ne_true]
  constructor
  · intro h
    split at h
    · cases h
    · cases h
    · exact ⟨_, ⟨‹_›, strayRnr_none ‹_› ‹_›⟩, h⟩
  · rintro ⟨r, hr, hc⟩
    rw [hr.1, hr.strayRnr_eq]
    exact hc

/-- R130. -/
theorem writeRasr_privileged_iff :
    writeRasr addr size true data s = .next t ↔
      aligned addr size = true ∧ s.impl.nregions ≠ .absent ∧ reservedRefused s data rasrReserved = false ∧
        ∃ r, Selects s r ∧ commit s (s.cfg.withRasr r.toNat data) = .next t := by
  refine regPrePresent_privileged_iff.trans (and_congr_right' (and_congr_right' ⟨fun h => ?_, ?_⟩))
  · split at h
    · cases h
    · split at h
      · cases h
      · cases h
      · exact ⟨eq_false_of_ne_true ‹_›, _, ⟨‹_›, strayRnr_none ‹_› ‹_›⟩, h⟩
  · rintro ⟨hres, r, hr, hc⟩
    rw [hres, if_neg Bool.false_ne_true, hr.1, hr.strayRnr_eq]
    exact hc

end privileged

/-! ### Repeated writes (R55) -/

theorem commit_impl (h : commit s c = .next t) : t.impl = s.impl := (commit_writeFrame h).1

/-- Asked again for the configuration it has made current, a write changes nothing. -/
theorem commit_again (h : commit s c = .next t) : commit t c = .next t := by
  have hr : t.answer .ok = t := by obtain ⟨-, rfl⟩ | ⟨-, -, rfl⟩ := commit_next h <;> rfl
  rw [commit, if_pos (commit_cfg h).symm, hr]

theorem reservedRefused_eq (h : t.impl = s.impl) (data reserved : Word) :
    reservedRefused t data reserved = reservedRefused s data reserved := by
  simp only [reservedRefused, h]

theorem Selects.commit {r : BitVec 8} (hr : Selects s r) (hc : commit s c = .next t) (h : c.rnr = s.cfg.rnr) :
    Selects t r :=
  ⟨by rw [commit_cfg hc, h, hr.1], commit_impl hc ▸ hr.2⟩

/-- A region written twice holds what the second write made of the first one's. -/
theorem Cfg.setRegion_setRegion (c : Cfg) (n : Nat) (q r : Region) :
    (c.setRegion n q).setRegion n r = c.setRegion n r := by
  simp [Cfg.setRegion]

theorem Cfg.regionAt_setRegion (h : n < c.region.length) (r : Region) : (c.setRegion n r).regionAt n = r := by
  simp [Cfg.setRegion, Cfg.regionAt, h]

theorem Cfg.setRegion_of_ge (h : c.region.length ≤ n) (r : Region) : c.setRegion n r = c := by
  rw [Cfg.setRegion, List.set_eq_of_length_le h]

theorem Cfg.withBase_withBase (c : Cfg) (n : Nat) (d : Word) : (c.withBase n d).withBase n d = c.withBase n d := by
  by_cases hn : n < c.region.length
  · rw [Cfg.withBase, Cfg.withBase, Cfg.regionAt_setRegion hn, Cfg.setRegion_setRegion]
  · simp only [Cfg.withBase, Cfg.setRegion_of_ge (Nat.le_of_not_lt hn)]

theorem Cfg.withRasr_withRasr (c : Cfg) (n : Nat) (d : Word) : (c.withRasr n d).withRasr n d = c.withRasr n d := by
  by_cases hn : n < c.region.length
  · rw [Cfg.withRasr, Cfg.withRasr, Cfg.regionAt_setRegion hn, Cfg.setRegion_setRegion]
  · simp only [Cfg.withRasr, Cfg.setRegion_of_ge (Nat.le_of_not_lt hn)]

section repeated

variable {addr : Word} {size : Size} {priv : Bool} {data : Word}

/-- A refused privilege is refused again (R120). -/
theorem regPrePresent_unprivileged_again {go : Result} (h : regPrePresent addr size false s go = .next t)
    (go' : Result) : regPrePresent addr size false t go' = .next t := by
  obtain ⟨ha, ⟨-, rfl⟩ | ⟨hp, -, -⟩⟩ := regPrePresent_next h
  · exact regPre_unprivileged ha
  · cases hp

theorem execMpuTypeWrite_again (h : execMpuTypeWrite addr size priv data s = .next t) :
    execMpuTypeWrite addr size priv data t = .next t := by
  cases priv with
  | false => exact regPrePresent_unprivileged_again h _
  | true =>
    obtain ⟨-, -, hg⟩ := regPrePresent_privileged_iff.mp h
    cases hg

theorem execMpuCtrlWrite_again (h : execMpuCtrlWrite addr size priv data s = .next t) :
    execMpuCtrlWrite addr size priv data t = .next t := by
  cases priv with
  | false => exact regPrePresent_unprivileged_again h _
  | true =>
    obtain ⟨ha, hp, hres, hctrl, hc⟩ := execMpuCtrlWrite_privileged_iff.mp h
    have himpl := commit_impl hc
    refine execMpuCtrlWrite_privileged_iff.mpr ⟨ha, himpl ▸ hp, reservedRefused_eq himpl _ _ ▸ hres, hctrl, ?_⟩
    rw [commit_cfg hc]
    exact commit_again hc

theorem execMpuRnrWrite_again (h : execMpuRnrWrite addr size priv data s = .next t) :
    execMpuRnrWrite addr size priv data t = .next t := by
  cases priv with
  | false => exact regPrePresent_unprivileged_again h _
  | true =>
    obtain ⟨ha, hp, hres, hn, hc⟩ := execMpuRnrWrite_privileged_iff.mp h
    have himpl := commit_impl hc
    refine execMpuRnrWrite_privileged_iff.mpr ⟨ha, himpl ▸ hp, reservedRefused_eq himpl _ _ ▸ hres, himpl ▸ hn, ?_⟩
    rw [commit_cfg hc]
    exact commit_again hc

theorem writeRbar_again (h : writeRbar addr size priv data s = .next t) :
    writeRbar addr size priv data t = .next t := by
  cases priv with
  | false => exact regPrePresent_unprivileged_again h _
  | true =>
    cases hv : validOfRbar data with
    | true =>
      obtain ⟨ha, hp, hn, hc⟩ := (writeRbar_valid_iff hv).mp h
      have himpl := commit_impl hc
      refine (writeRbar_valid_iff hv).mpr ⟨ha, himpl ▸ hp, himpl ▸ hn, ?_⟩
      rw [commit_cfg hc]
      exact (congrArg _ (Cfg.withBase_withBase _ _ _)).trans (commit_again hc)
    | false =>
      obtain ⟨ha, hp, r, hr, hc⟩ := (writeRbar_selected_iff hv).mp h
      have himpl := commit_impl hc
      refine (writeRbar_selected_iff hv).mpr ⟨ha, himpl ▸ hp, r, hr.commit hc rfl, ?_⟩
      rw [commit_cfg hc, Cfg.withBase_withBase]
      exact commit_again hc

theorem writeRasr_again (h : writeRasr addr size priv data s = .next t) :
    writeRasr addr size priv data t = .next t := by
  cases priv with
  | false => exact regPrePresent_unprivileged_again h _
  | true =>
    obtain ⟨ha, hp, hres, r, hr, hc⟩ := writeRasr_privileged_iff.mp h
    have himpl := commit_impl hc
    refine writeRasr_privileged_iff.mpr
      ⟨ha, himpl ▸ hp, reservedRefused_eq himpl _ _ ▸ hres, r, hr.commit hc rfl, ?_⟩
    rw [commit_cfg hc, Cfg.withRasr_withRasr]
    exact commit_again hc

end repeated

/-- Settles O24: a write's conditions hold again, and it asks again for the configuration it has made current. -/
theorem repeatedWrite : Obligations.RepeatedWrite := by
  intro i s t hi h
  cases i with
  | mpuTypeWrite _ _ _ data => exact execMpuTypeWrite_again (data := data) h
  | mpuCtrlWrite => exact execMpuCtrlWrite_again h
  | mpuRnrWrite => exact execMpuRnrWrite_again h
  | mpuRbarWrite | mpuRbarA1Write | mpuRbarA2Write | mpuRbarA3Write => exact writeRbar_again h
  | mpuRasrWrite | mpuRasrA1Write | mpuRasrA2Write | mpuRasrA3Write => exact writeRasr_again h
  | _ => simp [Instr.isRegWrite, Instr.regAccess?] at hi

/-! ### The words the registers read as (R83 to R86) -/

/-- The reserved bits [31:3] of MPU_CTRL are lost (R83, R94). -/
theorem ctrlRegWord_ctrlOfWord (d : Word) : ctrlRegWord (ctrlOfWord d) = d &&& 0x00000007#32 := by
  refine BitVec.eq_of_getLsbD_eq ?_
  unfold ctrlRegWord
  simp only [BitVec.getLsbD_append, Nat.forall_lt_succ_right]
  simp [ctrlOfWord]

/-- The reserved bits of MPU_RASR are lost (R86, R94). -/
theorem rasrWord_attrOfRasr (d : Word) : rasrWord (attrOfRasr d) (enableOfRasr d) = d &&& 0x173FFF3F#32 := by
  refine BitVec.eq_of_getLsbD_eq ?_
  unfold rasrWord
  simp only [BitVec.getLsbD_append, Nat.forall_lt_succ_right]
  simp [attrOfRasr, enableOfRasr]

theorem rnrWord_toNat (n : BitVec 8) : (rnrWord n).toNat = n.toNat := BitVec.toNat_setWidth_of_le (by decide)

/-- The reserved bits [31:8] of MPU_RNR are lost (R84, R94). -/
theorem rnrWord_regionOfRnr (d : Word) : rnrWord (regionOfRnr d) = d &&& 0x000000FF#32 := by
  refine BitVec.eq_of_toNat_eq ?_
  rw [rnrWord_toNat, BitVec.toNat_and]
  exact (Nat.and_two_pow_sub_one_eq_mod d.toNat 8).symm

theorem regionOfRbar_toNat (d : Word) : (regionOfRbar d).toNat = d.toNat % 16 := rfl

theorem regionOfRbar_zeroExtend_toNat (d : Word) : ((regionOfRbar d).zeroExtend 8).toNat = d.toNat % 16 :=
  BitVec.toNat_setWidth_of_le (by decide)

/-- R125: MPU_RNR holds the REGION of a VALID 1 write of MPU_RBAR. -/
theorem rnrWord_regionOfRbar (d : Word) : rnrWord ((regionOfRbar d).zeroExtend 8) = d &&& 0x0000000F#32 := by
  refine BitVec.eq_of_toNat_eq ?_
  rw [rnrWord_toNat, regionOfRbar_zeroExtend_toNat, BitVec.toNat_and]
  exact (Nat.and_two_pow_sub_one_eq_mod d.toNat 4).symm

theorem rbarWord_getLsbD (b : BitVec 27) (n i : Nat) :
    (rbarWord b n).getLsbD i =
      if i < 4 then (BitVec.ofNat 4 n).getLsbD i
      else if i - 4 < 1 then (0#1).getLsbD (i - 4) else b.getLsbD (i - 4 - 1) := by
  rw [rbarWord, BitVec.getLsbD_append, BitVec.getLsbD_append]

theorem rbarWord_getLsbD_add_five (b : BitVec 27) (n i : Nat) : (rbarWord b n).getLsbD (i + 5) = b.getLsbD i := by
  rw [rbarWord_getLsbD, if_neg (by omega), if_neg (by omega)]
  rfl

/-- VALID reads 0 (R85). -/
theorem rbarWord_valid (b : BitVec 27) (n : Nat) : (rbarWord b n).getLsbD 4 = false := rbarWord_getLsbD b n 4

theorem rbarWord_toNat_mod (b : BitVec 27) (n : Nat) : (rbarWord b n).toNat % 16 = n % 16 := by
  rw [rbarWord, BitVec.toNat_append, ← Nat.shiftLeft_add_eq_or_of_lt (BitVec.isLt _), Nat.shiftLeft_eq,
    Nat.mul_add_mod_self_right, BitVec.toNat_ofNat]
  exact Nat.mod_mod _ _

/-- A stored zero reads as 0 and a stored bit under the mask as stored, whatever is drawn for the others (R127). -/
theorem drawnOutside_getLsbD (stored mask draw : BitVec 27) (i : Nat) :
    (stored.getLsbD i = false →
      (if stored &&& ~~~mask = 0#27 then stored
        else (stored &&& mask) ||| (stored &&& ~~~mask &&& draw)).getLsbD i = false) ∧
      (mask.getLsbD i = true →
        (if stored &&& ~~~mask = 0#27 then stored
          else (stored &&& mask) ||| (stored &&& ~~~mask &&& draw)).getLsbD i = stored.getLsbD i) := by
  split
  · exact ⟨id, fun _ => rfl⟩
  · simp +contextual only [BitVec.getLsbD_or, BitVec.getLsbD_and, BitVec.getLsbD_not, Bool.false_and, Bool.and_true,
      Bool.not_true, Bool.and_false, Bool.or_false, implies_true, and_self]

/-- R127: a stored zero reads as 0, and a bit of ADDR as stored. -/
theorem rbarReadBits_getLsbD {r : Region} {b : BitVec 27} (hb : r.base = some b) (freeBase freeReserved : BitVec 27)
    {i : Nat} (hi : i < 27) :
    (b.getLsbD i = false → (rbarReadBits r freeBase freeReserved).getLsbD i = false) ∧
      ∀ t, r.attr = some t → sizeLog t.size ≤ i + 5 →
        (rbarReadBits r freeBase freeReserved).getLsbD i = b.getLsbD i := by
  cases ha : r.attr with
  | none =>
    simp only [rbarReadBits, hb, ha]
    exact ⟨(drawnOutside_getLsbD b 0#27 freeReserved i).1, nofun⟩
  | some a =>
    simp only [rbarReadBits, hb, ha]
    obtain ⟨hzero, haddr⟩ := drawnOutside_getLsbD b (addrMask a.size) freeReserved i
    refine ⟨hzero, fun t ht hs => haddr ?_⟩
    cases ht
    rw [addrMask_getLsbD]
    simp [hi, hs]

/-- R127: what a read of MPU_RBAR shows of the selected region. -/
theorem rbarRead_shows (s : State) : RbarShows (s.cfg.regionAt (shownRegion s)) (shownRegion s) (rbarRead s) := by
  refine ⟨rbarWord_valid _ _, rbarWord_toNat_mod _ _, fun b hb i hi => ?_⟩
  rw [rbarRead, rbarWord_getLsbD_add_five]
  exact rbarReadBits_getLsbD hb _ _ hi

/-! ### A register read after a write sees it (R54) -/

section readsBack

variable {addr : Word} {size : Size} {priv : Bool} {data : Word}

theorem readRbar_selected {r : BitVec 8} (ha : Accepted addr size priv) (hp : s.impl.nregions ≠ .absent)
    (hr : Selects s r) : readRbar addr size priv s = .next (s.drawn.answer (.value (rbarRead s))) := by
  rw [readRbar, ha.regPrePresent_eq hp, hr.strayRnr_eq]

theorem readRasr_selected {r : BitVec 8} (ha : Accepted addr size priv) (hp : s.impl.nregions ≠ .absent)
    (hr : Selects s r) : readRasr addr size priv s = .next (s.drawn.answer (.value (rasrRead s))) := by
  rw [readRasr, ha.regPrePresent_eq hp, hr.strayRnr_eq]

/-- The region a word written to MPU_RBAR goes to: REGION with VALID 1, and what MPU_RNR selects with VALID 0 (R128). -/
theorem writeRbar_leaves (hn : (if data.getLsbD 4 = true then some (data.toNat % 16) else s.cfg.rnr.map BitVec.toNat) =
    some n) (h : writeRbar addr size true data s = .next t) :
    t.impl = s.impl ∧ s.impl.nregions ≠ .absent ∧ (∃ r, Selects t r ∧ r.toNat = n) ∧
      t.cfg.region = (s.cfg.withBase n data).region := by
  cases hv : data.getLsbD 4 with
  | true =>
    obtain ⟨-, hp, hlt, hc⟩ := (writeRbar_valid_iff hv).mp h
    obtain rfl : data.toNat % 16 = n := by rw [if_pos hv] at hn; exact Option.some.inj hn
    have hrnr := regionOfRbar_zeroExtend_toNat data
    refine ⟨commit_impl hc, hp, ⟨_, ⟨by rw [commit_cfg hc]; rfl, ?_⟩, hrnr⟩, by rw [commit_cfg hc]; rfl⟩
    rw [commit_impl hc, hrnr]
    exact hlt
  | false =>
    obtain ⟨-, hp, r, hr, hc⟩ := (writeRbar_selected_iff hv).mp h
    obtain rfl : r.toNat = n := by
      rw [if_neg (ne_true_of_eq_false hv), hr.1] at hn
      exact Option.some.inj hn
    exact ⟨commit_impl hc, hp, ⟨r, hr.commit hc rfl, rfl⟩, by rw [commit_cfg hc]⟩

end readsBack

theorem Cfg.regionAt_withBase (h : n < c.region.length) (d : Word) :
    (c.withBase n d).regionAt n = { c.regionAt n with base := some (baseOfRbar d) } :=
  Cfg.regionAt_setRegion h _

theorem Cfg.regionAt_withRasr (h : n < c.region.length) (d : Word) :
    (c.withRasr n d).regionAt n = { c.regionAt n with attr := some (attrOfRasr d), enable := enableOfRasr d } :=
  Cfg.regionAt_setRegion h _

theorem Cfg.regionAt_congr {d : Cfg} (h : c.region = d.region) (n : Nat) : c.regionAt n = d.regionAt n := by
  simp only [Cfg.regionAt, h]

theorem baseOfRbar_getLsbD {i : Nat} (hi : i < 27) (d : Word) : (baseOfRbar d).getLsbD i = d.getLsbD (i + 5) := by
  rw [baseOfRbar, BitVec.getLsbD_extractLsb', Nat.add_comm]
  simp [hi]

/-- Settles O12: each completed write is taken to the configuration it leaves, and the read to what it shows of it. -/
theorem writeReadsBack : Obligations.WriteReadsBack := by
  intro s t addr addr' data haddr
  have hacc : Accepted addr' .word true := ⟨rfl, haddr, rfl⟩
  refine ⟨fun h => ?ctrl, fun h => ?rnr, fun p hp hv h => ?rbarRnr, fun hlen p hp q hq n hn h => ?rbar,
    fun hlen p hp q hq h => ?rasr⟩
  case ctrl =>
    obtain ⟨-, hpres, -, -, hc⟩ := execMpuCtrlWrite_privileged_iff.mp h
    refine ⟨_, hacc.regPrePresent_eq (commit_impl hc ▸ hpres), ?_⟩
    rw [State.answer_reply, commit_cfg hc, ctrlRegWord_ctrlOfWord]
  case rnr =>
    obtain ⟨-, hpres, -, -, hc⟩ := execMpuRnrWrite_privileged_iff.mp h
    refine ⟨_, hacc.regPrePresent_eq (commit_impl hc ▸ hpres), ?_⟩
    rw [State.answer_reply, rnrRead, commit_cfg hc, ← rnrWord_regionOfRnr]
  case rbarRnr =>
    rw [exec_rbarWrites hp] at h
    obtain ⟨-, hpres, -, hc⟩ := (writeRbar_valid_iff hv).mp h
    refine ⟨_, hacc.regPrePresent_eq (commit_impl hc ▸ hpres), ?_⟩
    rw [State.answer_reply, rnrRead, commit_cfg hc, ← rnrWord_regionOfRbar]
    rfl
  case rbar =>
    rw [exec_rbarWrites hp] at h
    obtain ⟨himpl, hpres, ⟨r, hr, rfl⟩, hreg⟩ := writeRbar_leaves hn h
    have hlt : r.toNat < s.cfg.region.length := by rw [hlen, ← himpl]; exact hr.2
    have hshows := rbarRead_shows t
    rw [hr.shownRegion_eq, Cfg.regionAt_congr hreg, Cfg.regionAt_withBase hlt] at hshows
    obtain ⟨hvalid, hnumber, hbits⟩ := hshows
    refine ⟨_, rbarRead t, (exec_rbarReads hq).trans (readRbar_selected hacc (himpl ▸ hpres) hr), rfl, hvalid, hnumber,
      fun i h5 hi => ?_⟩
    obtain ⟨j, rfl⟩ := Nat.exists_eq_add_of_le' h5
    have hj : j < 27 := by omega
    rw [← baseOfRbar_getLsbD hj]
    exact hbits _ rfl j hj
  case rasr =>
    rw [exec_rasrWrites hp] at h
    obtain ⟨-, hpres, -, r, hr, hc⟩ := writeRasr_privileged_iff.mp h
    have hsel : Selects t r := hr.commit hc rfl
    refine ⟨_, (exec_rasrReads hq).trans (readRasr_selected hacc (commit_impl hc ▸ hpres) hsel), ?_⟩
    rw [State.answer_reply, rasrRead, hsel.shownRegion_eq, commit_cfg hc, Cfg.regionAt_withRasr (hlen ▸ hr.2),
      ← rasrWord_attrOfRasr]

end Sys2Proof.Machine

/-! ## Encoding: packets, register words and the encodings of sizes and attributes -/

namespace Sys2Proof

variable {p : Packet} {i : Instr}

/-! ### Packets and control words (R80, R96; log 4) -/

/-- A control word with bits [31:6] zero is the packing of its four fields: only its six low bits are left to try. -/
theorem ctrlWord_fields {w : Word} (h : w.extractLsb' 6 26 = 0#26) :
    ctrlWord (w.extractLsb' 4 2) (w.getLsbD 3) (w.getLsbD 2) (w.extractLsb' 0 2) = w := by
  have hlt : w.toNat < 64 := by
    have hn := congrArg BitVec.toNat h
    simp only [BitVec.extractLsb'_toNat, Nat.shiftRight_eq_div_pow, BitVec.toNat_ofNat] at hn
    omega
  obtain ⟨n, rfl⟩ : ∃ n : BitVec 6, w = n.setWidth 32 :=
    ⟨w.setWidth 6, BitVec.eq_of_toNat_eq (by simp; omega)⟩
  revert n
  decide

/-- Decoding a packet whose control word is packed from its fields chooses among the formats. -/
theorem decode_ctrlWord {code format : BitVec 2} {bit3 bit2 : Bool} (h : p.ctrl = ctrlWord code bit3 bit2 format) :
    decode p =
      if format = 0#2 then decodeReg p (!bit2) bit3 code
      else if format = 1#2 then decodeChk p (!bit2) bit3 code
      else if format = 2#2 then decodeEvt p bit2 bit3 code
      else decodeRst p bit2 bit3 code := by
  simp only [decode, h, ctrlWord_unused, ctrlWord_format, ctrlWord_code, ctrlWord_bit2, ctrlWord_bit3, if_true]

/-- A packet that holds an operation has bits [31:6] of its control word zero. -/
theorem ctrl_unused_of_decode (h : decode p = .instr i) : p.ctrl.extractLsb' 6 26 = 0#26 := by
  by_cases hc : p.ctrl.extractLsb' 6 26 = 0#26
  · exact hc
  · rw [decode, if_neg hc] at h
    cases h

/-! ### Encoding, then decoding -/

/-- R81, R120: the packet of a read at an address of `r` decodes to the read of `r`. -/
theorem decode_packetOfRead {r : Reg} {addr : Word} (h : r.holds addr = true) (size : Size) (priv : Bool) :
    decode (packetOfRead addr size priv) = .instr (readOf r addr size priv) := by
  rw [decode_ctrlWord rfl]
  simp [decodeReg, packetOfRead, regOfAddr_of_holds h]

theorem decode_packetOfWrite {r : Reg} {addr : Word} (h : r.holds addr = true) (size : Size) (priv : Bool)
    (data : Word) : decode (packetOfWrite addr size priv data) = .instr (writeOf r addr size priv data) := by
  rw [decode_ctrlWord rfl]
  simp [decodeReg, packetOfWrite, regOfAddr_of_holds h]

theorem decode_packetOfCheck (code : BitVec 2) (a more : Word) (priv negprio : Bool) :
    decode (packetOfCheck code a more priv negprio) =
      decodeChk (packetOfCheck code a more priv negprio) priv negprio code := by
  rw [decode_ctrlWord rfl]
  simp

theorem decode_packetOfEvent (code : BitVec 2) :
    decode (packetOfEvent code) = decodeEvt (packetOfEvent code) false false code := by
  rw [decode_ctrlWord rfl]
  simp

/-- Settles O5: the register operations by the register their address belongs to, the rest by their code. -/
theorem decodeEncode : Obligations.DecodeEncode := by
  intro i h
  cases i with
  | mpuTypeRead | mpuCtrlRead | mpuRnrRead | mpuRbarRead | mpuRasrRead | mpuRbarA1Read | mpuRasrA1Read
  | mpuRbarA2Read | mpuRasrA2Read | mpuRbarA3Read | mpuRasrA3Read => exact decode_packetOfRead h _ _
  | mpuTypeWrite | mpuCtrlWrite | mpuRnrWrite | mpuRbarWrite | mpuRasrWrite | mpuRbarA1Write | mpuRasrA1Write
  | mpuRbarA2Write | mpuRasrA2Write | mpuRbarA3Write | mpuRasrA3Write => exact decode_packetOfWrite h _ _ _
  | checkRead | checkWrite | checkFetch | checkVector => exact decode_packetOfCheck _ _ _ _ _
  | evtDsb | evtIsb | evtExcEntry | evtExcReturn => exact decode_packetOfEvent _
  | reset => decide

/-- Settles O8, by running the decoder on the eight packets. -/
theorem decodedWords : Obligations.DecodedWords := by
  unfold Obligations.DecodedWords
  decide

/-! ### Decoding, then encoding -/

theorem readOf_wellFormed (r : Reg) (addr : Word) (size : Size) (priv : Bool) :
    (readOf r addr size priv).wellFormed = r.holds addr := by
  cases r <;> rfl

theorem writeOf_wellFormed (r : Reg) (addr : Word) (size : Size) (priv : Bool) (data : Word) :
    (writeOf r addr size priv data).wellFormed = r.holds addr := by
  cases r <;> rfl

theorem encode_readOf (r : Reg) (addr : Word) (size : Size) (priv : Bool) :
    encode (readOf r addr size priv) = packetOfRead addr size priv := by
  cases r <;> rfl

theorem encode_writeOf (r : Reg) (addr : Word) (size : Size) (priv : Bool) (data : Word) :
    encode (writeOf r addr size priv data) = packetOfWrite addr size priv data := by
  cases r <;> rfl

/-- Operation `i` is well-formed, and its packet has these fields. -/
def Instr.EncodesTo (i : Instr) (addr : Word) (code : BitVec 2) (bit3 bit2 : Bool) (format : BitVec 2) (data : Word) :
    Prop :=
  i.wellFormed = true ∧ encode i = { addr := addr, ctrl := ctrlWord code bit3 bit2 format, data := data }

theorem decodeReg_encodesTo {priv write : Bool} {code : BitVec 2} (h : decodeReg p priv write code = .instr i) :
    i.EncodesTo p.addr code write (!priv) 0#2 p.data := by
  unfold decodeReg at h
  cases hs : sizeOfCode code with
  | none => simp [hs] at h
  | some size =>
    cases hr : regOfAddr p.addr with
    | none => simp [hs, hr] at h
    | some r =>
      have hholds := holds_of_regOfAddr hr
      obtain rfl := codeOfSize_sizeOfCode hs
      simp only [hs, hr] at h
      split at h
      next hw =>
        cases h
        exact ⟨(writeOf_wellFormed ..).trans hholds, hw ▸ encode_writeOf ..⟩
      next hw =>
        split at h
        next hd =>
          cases h
          rw [Bool.not_eq_true] at hw
          exact ⟨(readOf_wellFormed ..).trans hholds, hw ▸ hd ▸ encode_readOf ..⟩
        next => cases h

theorem code_cases (code : BitVec 2) : code = 0#2 ∨ code = 1#2 ∨ code = 2#2 ∨ code = 3#2 := by
  revert code
  decide

theorem decodeChk_encodesTo {priv negprio : Bool} {code : BitVec 2} (h : decodeChk p priv negprio code = .instr i) :
    i.EncodesTo p.addr code negprio (!priv) 1#2 p.data := by
  obtain rfl | rfl | rfl | rfl := code_cases code
  · cases h
    exact ⟨rfl, rfl⟩
  · cases h
    exact ⟨rfl, rfl⟩
  · cases h
    exact ⟨rfl, rfl⟩
  · rw [decodeChk, if_neg (by decide), if_neg (by decide), if_neg (by decide)] at h
    split at h
    next hd =>
      cases h
      exact ⟨rfl, hd ▸ rfl⟩
    next => cases h

theorem decodeEvt_encodesTo {bit2 bit3 : Bool} {code : BitVec 2} (h : decodeEvt p bit2 bit3 code = .instr i) :
    i.EncodesTo p.addr code bit3 bit2 2#2 p.data := by
  unfold decodeEvt at h
  split at h
  next hz =>
    obtain ⟨ha, hd, rfl, rfl⟩ := hz
    rw [ha, hd]
    obtain rfl | rfl | rfl | rfl := code_cases code <;> cases h <;> exact ⟨rfl, rfl⟩
  next => cases h

theorem decodeRst_encodesTo {bit2 bit3 : Bool} {code : BitVec 2} (h : decodeRst p bit2 bit3 code = .instr i) :
    i.EncodesTo p.addr code bit3 bit2 3#2 p.data := by
  unfold decodeRst at h
  split at h
  next hz =>
    obtain ⟨ha, hd, rfl, rfl, rfl⟩ := hz
    rw [ha, hd]
    cases h
    exact ⟨rfl, rfl⟩
  next => cases h

/-- Settles O6: a packet that holds an operation has its control word packed from the fields its format reads. -/
theorem encodeDecode : Obligations.EncodeDecode := by
  intro p i h
  obtain ⟨code, bit3, bit2, format, hc⟩ : ∃ code bit3 bit2 format, p.ctrl = ctrlWord code bit3 bit2 format :=
    ⟨_, _, _, _, (ctrlWord_fields (ctrl_unused_of_decode h)).symm⟩
  suffices hi : i.EncodesTo p.addr code bit3 bit2 format p.data by
    obtain ⟨hwf, henc⟩ := hi
    exact ⟨hwf, henc.trans (by rw [← hc])⟩
  rw [decode_ctrlWord hc] at h
  obtain rfl | rfl | rfl | rfl := code_cases format
  · simpa only [Bool.not_not] using decodeReg_encodesTo h
  · simpa only [Bool.not_not] using decodeChk_encodesTo h
  · exact decodeEvt_encodesTo h
  · exact decodeRst_encodesTo h

end Sys2Proof

namespace Sys2Proof.Machine

/-! ### Register words (R83 to R86, R94) -/

/-- The reserved bits of a word are zero exactly when masking them out leaves the word as it is. -/
theorem and_eq_zero_iff_and_not {d mask : Word} : d &&& mask = 0#32 ↔ d &&& ~~~mask = d := by
  simp only [BitVec.eq_of_getLsbD_eq_iff, BitVec.getLsbD_and, BitVec.getLsbD_not]
  refine forall₂_congr fun j hj => ?_
  cases d.getLsbD j <;> simp [hj]

theorem ctrlOfWord_ctrlRegWord (c : Ctrl) : ctrlOfWord (ctrlRegWord c) = c := by
  obtain ⟨privdefena, hfnmena, enable⟩ := c
  revert privdefena hfnmena enable
  decide

theorem regionOfRnr_rnrWord (n : BitVec 8) : regionOfRnr (rnrWord n) = n := by
  refine BitVec.eq_of_toNat_eq ?_
  rw [regionOfRnr, BitVec.extractLsb'_toNat, rnrWord_toNat]
  exact Nat.mod_eq_of_lt n.isLt

theorem baseOfRbar_rbarWord (b : BitVec 27) (n : Nat) : baseOfRbar (rbarWord b n) = b :=
  BitVec.eq_of_getLsbD_eq fun j hj => by rw [baseOfRbar_getLsbD hj, rbarWord_getLsbD_add_five]

theorem attrOfRasr_rasrWord (t : Attr) (enable : Bool) : attrOfRasr (rasrWord t enable) = t := by
  unfold attrOfRasr rasrWord
  simp (disch := omega) only [BitVec.getLsbD_append, BitVec.extractLsb'_append_eq_of_le,
    BitVec.extractLsb'_append_eq_of_add_le, Nat.reduceLT, Nat.reduceSub, ↓reduceIte]
  simp

theorem enableOfRasr_rasrWord (t : Attr) (enable : Bool) : enableOfRasr (rasrWord t enable) = enable := by
  unfold enableOfRasr rasrWord
  rw [BitVec.getLsbD_append]
  simp

/-- Settles O9: packing the fields of a word keeps its bits outside the reserved ones. -/
theorem rasrWordRoundTrip : Obligations.RasrWordRoundTrip := by
  refine ⟨fun t e => ⟨attrOfRasr_rasrWord t e, enableOfRasr_rasrWord t e, and_eq_zero_iff_and_not.mpr ?_⟩,
    fun d hd => (rasrWord_attrOfRasr d).trans (and_eq_zero_iff_and_not.mp hd)⟩
  exact (rasrWord_attrOfRasr _).symm.trans (by rw [attrOfRasr_rasrWord, enableOfRasr_rasrWord])

/-- Settles O10, register by register: packing the fields of a word keeps its bits outside the reserved ones. -/
theorem registerWordsRoundTrip : Obligations.RegisterWordsRoundTrip := by
  refine ⟨fun c => ⟨ctrlOfWord_ctrlRegWord c, and_eq_zero_iff_and_not.mpr ?ctrl⟩,
    fun d hd => (ctrlRegWord_ctrlOfWord d).trans (and_eq_zero_iff_and_not.mp hd),
    fun n => ⟨regionOfRnr_rnrWord n, and_eq_zero_iff_and_not.mpr ?rnr⟩,
    fun d hd => (rnrWord_regionOfRnr d).trans (and_eq_zero_iff_and_not.mp hd),
    fun b n => ⟨baseOfRbar_rbarWord b n, rbarWord_valid b n, rbarWord_toNat_mod b n⟩⟩
  case ctrl => exact (ctrlRegWord_ctrlOfWord _).symm.trans (by rw [ctrlOfWord_ctrlRegWord])
  case rnr => exact (rnrWord_regionOfRnr _).symm.trans (by rw [regionOfRnr_rnrWord])

/-! ### Sizes and attributes (R88 to R90) -/

/-- Settles O44: the formula is the definition, and each row of Table 90 an instance of it. -/
theorem regionSizes : Obligations.RegionSizes := ⟨by decide, fun _ => ⟨rfl, rfl⟩⟩

/-- R89: for TEX = 0b1BB, C and B are AA, the inner policy, and BB is the outer policy. -/
theorem attrOf_cached (impdef : MemAttr) (bb : BitVec 2) (c b s : Bool) :
    attrOf impdef (1#1 ++ bb) c b s =
      some (.normal s (policy (BitVec.ofBool c ++ BitVec.ofBool b)) (policy bb)) := by
  have htex : ∀ bb : BitVec 2, 1#1 ++ bb ≠ 0b000#3 ∧ 1#1 ++ bb ≠ 0b001#3 ∧ 1#1 ++ bb ≠ 0b010#3 ∧
      1#1 ++ bb ≠ 0b011#3 ∧ (1#1 ++ bb).extractLsb' 0 2 = bb := by decide
  obtain ⟨h0, h1, h2, h3, hbb⟩ := htex bb
  unfold attrOf
  rw [if_neg h0, if_neg h1, if_neg h2, if_neg h3, hbb]

/-- Settles O45: the rows of Table 91 by the cases of `attrOf`, those of Table 92 by the cases of `policy`. -/
theorem attributeTable : Obligations.AttributeTable := fun impdef s =>
  ⟨rfl, rfl, rfl, rfl, rfl, rfl, rfl, rfl, rfl, rfl, fun b => by cases b <;> rfl, fun _ _ => rfl,
    fun bb c b => attrOf_cached impdef bb c b s, rfl, rfl, rfl, rfl⟩

end Sys2Proof.Machine

/-! ## Register access: the conditions of every access, and each register's read and write -/

namespace Sys2Proof

theorem wordAddr_toNat_div_four (a : Word) : (wordAddr a).toNat / 4 = a.toNat / 4 := by
  have hlt : a.toNat / 2 ^ 2 < 2 ^ 30 := by omega
  calc (a.toNat &&& 0xFFFFFFFC) / 2 ^ 2 = a.toNat / 2 ^ 2 &&& 2 ^ 30 - 1 := Nat.and_div_two_pow
    _ = a.toNat / 2 ^ 2 := Nat.and_two_pow_sub_one_of_lt_two_pow hlt

theorem Reg.addr_bounds (r : Reg) : 0xE000ED90 ≤ r.addr.toNat ∧ r.addr.toNat ≤ 0xE000EDB8 := by
  cases r <;> decide

theorem Reg.holds_addr (r : Reg) : r.holds r.addr = true := by
  cases r <;> decide

end Sys2Proof

namespace Sys2Proof.Machine

variable {s t : State} {c : Cfg} {addr : Word} {size : Size} {priv : Bool} {data : Word}

/-! ### The conditions of every register access (R120, R144) -/

/-- Every register's read meets the conditions of R120 first. -/
theorem exec_readOf_regPre (r : Reg) (s : State) (addr : Word) (size : Size) (priv : Bool) :
    ∃ go, exec (readOf r addr size priv) s = regPre addr size priv s go := by
  cases r <;> exact ⟨_, rfl⟩

/-- R144: every read but that of MPU_TYPE also needs an MPU. -/
theorem exec_readOf_regPrePresent {r : Reg} (hr : r ≠ .type) (s : State) (addr : Word) (size : Size) (priv : Bool) :
    ∃ go, exec (readOf r addr size priv) s = regPrePresent addr size priv s go := by
  cases r with
  | type => exact absurd rfl hr
  | _ => exact ⟨_, rfl⟩

/-- R144: every write also needs an MPU. -/
theorem exec_writeOf_regPrePresent (r : Reg) (s : State) (addr : Word) (size : Size) (priv : Bool) (data : Word) :
    ∃ go, exec (writeOf r addr size priv data) s = regPrePresent addr size priv s go := by
  cases r <;> exact ⟨_, rfl⟩

/-- The words of the registers lie in the register block (R29, R81). -/
theorem inRegisterBlock_of_holds {r : Reg} {a : Word} (h : r.holds a = true) : inRegisterBlock a = true := by
  have hw : wordAddr a = r.addr := eq_of_beq h
  have hdiv := wordAddr_toNat_div_four a
  obtain ⟨hlow, hhigh⟩ := r.addr_bounds
  rw [hw] at hdiv
  simp only [inRegisterBlock, Bool.and_eq_true, decide_eq_true_eq]
  omega

/-- K2, R163: the System Control Space holds the register block, whatever else the implementation puts there. -/
theorem inSCS_of_holds {r : Reg} {a : Word} (h : r.holds a = true) (scs : List AddrRange) : inSCS scs a = true := by
  rw [inSCS, inRegisterBlock_of_holds h, Bool.true_or]

/-- Settles O11: each operation is RegPre followed by something, and a register's bytes lie in the System Control
Space. -/
theorem registerAccess : Obligations.RegisterAccess := by
  intro r s addr size priv data
  obtain ⟨goRead, hread⟩ := exec_readOf_regPre r s addr size priv
  obtain ⟨goWrite, hwrite⟩ := exec_writeOf_regPrePresent r s addr size priv data
  obtain ⟨hrule, habsent⟩ := regPrePresent_rule s addr size priv goWrite
  rw [hread, hwrite]
  refine ⟨regPre_rule s addr size priv goRead, hrule, fun hn hacc => ⟨fun hr => ?_, habsent hacc hn⟩,
    fun hholds c negprio => ?_⟩
  · obtain ⟨go, hgo⟩ := exec_readOf_regPrePresent hr s addr size priv
    obtain ⟨-, habsentRead⟩ := regPrePresent_rule s addr size priv go
    rw [← hread, hgo]
    exact habsentRead hacc hn
  · have hscs : s.params.inSCS addr = true := inSCS_of_holds hholds _
    exact ⟨by simp [check, hscs], by simp [check, hscs]⟩

/-! ### What a register read leaves alone -/

theorem State.answer_readFrame (s : State) (r : Reply) : ReadFrame s (s.answer r) := by
  simp [ReadFrame]

theorem State.drawn_answer_readFrame (s : State) (r : Reply) : ReadFrame s (s.drawn.answer r) := by
  simp [ReadFrame]

/-! ### MPU_TYPE -/

theorem typeWord_toNat (n : Regions) : (typeWord n).toNat = 256 * n.count := by
  cases n <;> decide

/-- Settles O13: behind RegPre the read answers `typeWord`. -/
theorem mpuTypeRead : Obligations.MpuTypeRead := fun s addr size priv =>
  ⟨regPre_rule s addr size priv _, fun hacc =>
    ⟨_, _, hacc.regPre_eq, rfl, typeWord_toNat _, s.answer_readFrame _, rfl⟩⟩

/-- Settles O14: behind RegPre the write is the refusal. -/
theorem mpuTypeWriteRefused : Obligations.MpuTypeWriteRefused := fun s addr size priv _ =>
  ⟨regPrePresent_rule s addr size priv _, fun hacc hp => hacc.regPrePresent_eq hp⟩

/-! ### MPU_CTRL -/

theorem ctrlRegWord_fields (c : Ctrl) :
    (ctrlRegWord c).getLsbD 2 = c.privdefena ∧ (ctrlRegWord c).getLsbD 1 = c.hfnmena ∧
      (ctrlRegWord c).getLsbD 0 = c.enable := by
  have h := ctrlOfWord_ctrlRegWord c
  exact ⟨congrArg Ctrl.privdefena h, congrArg Ctrl.hfnmena h, congrArg Ctrl.enable h⟩

theorem ctrlRegWord_lt (c : Ctrl) : (ctrlRegWord c).toNat < 8 := by
  obtain ⟨privdefena, hfnmena, enable⟩ := c
  revert privdefena hfnmena enable
  decide

/-- Settles O15: behind RegPre the read answers `ctrlRegWord`. -/
theorem mpuCtrlRead : Obligations.MpuCtrlRead := by
  refine fun s addr size priv => ⟨regPrePresent_rule s addr size priv _, fun hacc hp => ?_⟩
  obtain ⟨hprivdefena, hhfnmena, henable⟩ := ctrlRegWord_fields s.cfg.ctrl
  exact ⟨_, _, hacc.regPrePresent_eq hp, rfl, hprivdefena, hhfnmena, henable, ctrlRegWord_lt _, s.answer_readFrame _,
    rfl⟩

/-- R94: a one in a reserved position is refused under policy `refuse` alone. -/
theorem reservedRefused_eq_true {reserved : Word} (hpol : s.impl.reservedPolicy = .refuse)
    (h : data &&& reserved ≠ 0#32) : reservedRefused s data reserved = true := by
  simp [reservedRefused, hpol, h]

theorem reservedRefused_eq_false {reserved : Word}
    (h : s.impl.reservedPolicy = .ignore ∨ data &&& reserved = 0#32) : reservedRefused s data reserved = false := by
  obtain h | h := h <;> simp [reservedRefused, h]

/-- No bit from place `k` on is set exactly when the word is below 2^k. -/
theorem and_not_lowMask_eq_zero_iff (d : Word) {k : Nat} (hk : k < 32) :
    d &&& ~~~BitVec.ofNat 32 (2 ^ k - 1) = 0#32 ↔ d.toNat < 2 ^ k := by
  have hpow : 2 ^ k < 2 ^ 32 := Nat.pow_lt_pow_right (by decide) hk
  have hmask : (2 ^ k - 1) % 2 ^ 32 = 2 ^ k - 1 := Nat.mod_eq_of_lt (by omega)
  rw [and_eq_zero_iff_and_not, BitVec.not_not, ← BitVec.toNat_inj, BitVec.toNat_and, BitVec.toNat_ofNat, hmask,
    Nat.and_two_pow_sub_one_eq_mod]
  exact Nat.mod_eq_iff_lt (Nat.ne_of_gt (Nat.two_pow_pos k))

theorem and_ctrlReserved_eq_zero_iff (d : Word) : d &&& ctrlReserved = 0#32 ↔ d.toNat < 8 :=
  and_not_lowMask_eq_zero_iff d (k := 3) (by decide)

theorem and_rnrReserved_eq_zero_iff (d : Word) : d &&& rnrReserved = 0#32 ↔ d.toNat < 256 :=
  and_not_lowMask_eq_zero_iff d (k := 8) (by decide)

/-- Settles O16, by the branches of the write behind RegPre. -/
theorem mpuCtrlWrite : Obligations.MpuCtrlWrite := by
  refine fun s addr size priv data => ⟨regPrePresent_rule s addr size priv _, fun hacc hp => ?_⟩
  have hexec : exec (.mpuCtrlWrite addr size priv data) s = _ := hacc.regPrePresent_eq hp
  rw [hexec]
  refine ⟨fun hpol hd => ?reserved, fun hd => ?_⟩
  case reserved =>
    have hres : data &&& ctrlReserved ≠ 0#32 := mt (and_ctrlReserved_eq_zero_iff data).mp (Nat.not_lt.mpr hd)
    exact if_pos (reservedRefused_eq_true hpol hres)
  rw [reservedRefused_eq_false (hd.imp_right (and_ctrlReserved_eq_zero_iff data).mpr), if_neg Bool.false_ne_true]
  refine ⟨fun henable hhfnmena => if_pos ⟨henable, hhfnmena⟩, fun h => ?_⟩
  have hlegal : ¬ ((ctrlOfWord data).enable = false ∧ (ctrlOfWord data).hfnmena = true) := by
    rintro ⟨henable, hhfnmena⟩
    exact h.elim (ne_true_of_eq_false henable) (ne_false_of_eq_true hhfnmena)
  rw [if_neg hlegal]
  exact commit_writes s _

/-! ### MPU_RNR -/

/-- Settles O17, by whether MPU_RNR is Unknown. -/
theorem mpuRnrRead : Obligations.MpuRnrRead := by
  refine fun s addr size priv => ⟨regPrePresent_rule s addr size priv _, fun hacc hp =>
    ⟨_, _, hacc.regPrePresent_eq hp, rfl, s.drawn_answer_readFrame _, fun n hn => ?known, fun hn => ⟨?unknown, rfl⟩⟩⟩
  case known => rw [rnrRead, hn, rnrWord_toNat]
  case unknown => rw [rnrRead, hn, rnrWord_toNat]

/-- Settles O18, by the branches of the write behind RegPre. -/
theorem mpuRnrWrite : Obligations.MpuRnrWrite := by
  refine fun s addr size priv data => ⟨regPrePresent_rule s addr size priv _, fun hacc hp => ?_⟩
  have hexec : exec (.mpuRnrWrite addr size priv data) s = _ := hacc.regPrePresent_eq hp
  rw [hexec]
  refine ⟨fun hpol hd => ?reserved, fun hd => ?_⟩
  case reserved =>
    have hres : data &&& rnrReserved ≠ 0#32 := mt (and_rnrReserved_eq_zero_iff data).mp (Nat.not_lt.mpr hd)
    exact if_pos (reservedRefused_eq_true hpol hres)
  rw [reservedRefused_eq_false (hd.imp_right (and_rnrReserved_eq_zero_iff data).mpr), if_neg Bool.false_ne_true]
  refine ⟨fun hn => if_neg (Nat.not_lt.mpr hn), fun hn => ?_⟩
  rw [if_pos (show (regionOfRnr data).toNat < s.impl.nregions.count from hn)]
  exact commit_writes s _

/-! ### The region a read shows while MPU_RNR is Unknown -/

theorem strayRnr_of_unknown (h : s.cfg.rnr = none) : strayRnr s = none := by
  rw [strayRnr, h]

theorem Regions.count_pos {n : Regions} (h : n ≠ .absent) : 0 < n.count := by
  cases n with
  | absent => exact absurd rfl h
  | eight => decide
  | sixteen => decide

theorem shownRegion_lt (h : s.cfg.rnr = none) (hp : s.impl.nregions ≠ .absent) :
    shownRegion s < s.impl.nregions.count := by
  rw [shownRegion, h]
  exact Nat.mod_lt _ (Regions.count_pos hp)

theorem readRbar_unknown (hacc : Accepted addr size priv) (hp : s.impl.nregions ≠ .absent) (h : s.cfg.rnr = none) :
    readRbar addr size priv s = .next (s.drawn.answer (.value (rbarRead s))) := by
  rw [readRbar, hacc.regPrePresent_eq hp, strayRnr_of_unknown h]

theorem readRasr_unknown (hacc : Accepted addr size priv) (hp : s.impl.nregions ≠ .absent) (h : s.cfg.rnr = none) :
    readRasr addr size priv s = .next (s.drawn.answer (.value (rasrRead s))) := by
  rw [readRasr, hacc.regPrePresent_eq hp, strayRnr_of_unknown h]

/-! ### MPU_RBAR at its four addresses -/

/-- Settles O19: the read shows the selected region, or a drawn one while MPU_RNR is Unknown. -/
theorem mpuRbarRead : Obligations.MpuRbarRead := by
  intro p hmem s addr size priv
  rw [exec_rbarReads hmem]
  refine ⟨regPrePresent_rule s addr size priv _, fun hacc hp => ⟨fun n hn hlt => ?known, fun hn => ?unknown⟩⟩
  case known =>
    have hsel : Selects s n := ⟨hn, hlt⟩
    exact ⟨_, rbarRead s, readRbar_selected hacc hp hsel, rfl, s.drawn_answer_readFrame _,
      hsel.shownRegion_eq ▸ rbarRead_shows s⟩
  case unknown =>
    exact ⟨_, rbarRead s, shownRegion s, readRbar_unknown hacc hp hn, rfl, s.drawn_answer_readFrame _,
      shownRegion_lt hn hp, rbarRead_shows s⟩

/-- A field of a word is the word shifted down to it, and cut to the field's width. -/
theorem extractLsb'_eq_ofNat_div (d : Word) (start len : Nat) :
    d.extractLsb' start len = BitVec.ofNat len (d.toNat / 2 ^ start) := by
  rw [BitVec.extractLsb', Nat.shiftRight_eq_div_pow]

theorem regionOfRbar_zeroExtend (d : Word) : (regionOfRbar d).zeroExtend 8 = BitVec.ofNat 8 (d.toNat % 16) := by
  refine BitVec.eq_of_toNat_eq ?_
  rw [regionOfRbar_zeroExtend_toNat, BitVec.toNat_ofNat]
  omega

theorem Cfg.withBase_eq (c : Cfg) (n : Nat) (d : Word) :
    c.withBase n d =
      { c with
        region := c.region.set n { c.regionAt n with base := some (BitVec.ofNat 27 (d.toNat / 32)) } } :=
  congrArg (fun b => c.setRegion n { c.regionAt n with base := some b }) (extractLsb'_eq_ofNat_div d 5 27)

/-- `commit_writes`, with the configuration asked for written out in another way. -/
theorem commit_writes_of_eq {d : Cfg} (h : c = d) : Writes s d (commit s c) := h ▸ commit_writes s c

/-- Settles O20, by VALID and then by the branches of the write behind RegPre. -/
theorem mpuRbarWrite : Obligations.MpuRbarWrite := by
  intro p hmem s addr size priv data
  rw [exec_rbarWrites hmem]
  refine ⟨regPrePresent_rule s addr size priv _, fun hacc hp => ?_⟩
  rw [writeRbar, hacc.regPrePresent_eq hp]
  refine ⟨fun hv => ?valid, fun hv => ?selected⟩
  case valid =>
    rw [if_pos (show validOfRbar data = true from hv), regionOfRbar_toNat, regionOfRbar_zeroExtend]
    refine ⟨fun hn => if_neg (Nat.not_lt.mpr hn), fun hn => ?_⟩
    rw [if_pos hn]
    exact commit_writes_of_eq (Cfg.withBase_eq ..)
  case selected =>
    rw [show validOfRbar data = false from hv, if_neg Bool.false_ne_true]
    refine ⟨fun hn => by rw [hn]; rfl, fun n hn hlt => ?_⟩
    have hsel : Selects s n := ⟨hn, hlt⟩
    rw [hn, hsel.strayRnr_eq]
    exact commit_writes_of_eq (Cfg.withBase_eq ..)

/-! ### MPU_RASR at its four addresses -/

/-- What of a word read from MPU_RASR is fixed by region `r` (R129): the reserved bits, ENABLE, and every other field
that is not Unknown. -/
def RasrShows (r : Region) (w : Word) : Prop :=
  w &&& rasrReserved = 0#32 ∧ w.getLsbD 0 = r.enable ∧ ∀ a, r.attr = some a → attrOfRasr w = a

theorem rasrWord_and_rasrReserved (a : Attr) (enable : Bool) : rasrWord a enable &&& rasrReserved = 0#32 := by
  obtain ⟨hfields, -⟩ := rasrWordRoundTrip
  obtain ⟨-, -, hreserved⟩ := hfields a enable
  exact hreserved

theorem rasrRead_eq (s : State) :
    rasrRead s =
      rasrWord ((s.cfg.regionAt (shownRegion s)).attr.getD (Config.freeAttr s.draws))
        (s.cfg.regionAt (shownRegion s)).enable := by
  cases ha : (s.cfg.regionAt (shownRegion s)).attr <;> simp [rasrRead, ha]

theorem rasrRead_shows (s : State) : RasrShows (s.cfg.regionAt (shownRegion s)) (rasrRead s) := by
  rw [rasrRead_eq]
  refine ⟨rasrWord_and_rasrReserved _ _, enableOfRasr_rasrWord _ _, fun a ha => ?_⟩
  rw [ha]
  exact attrOfRasr_rasrWord _ _

/-- Settles O21: the read shows the selected region, or a drawn one while MPU_RNR is Unknown. -/
theorem mpuRasrRead : Obligations.MpuRasrRead := by
  intro p hmem s addr size priv
  rw [exec_rasrReads hmem]
  refine ⟨regPrePresent_rule s addr size priv _, fun hacc hp => ⟨fun n hn hlt => ?known, fun hn => ?unknown⟩⟩
  case known =>
    have hsel : Selects s n := ⟨hn, hlt⟩
    exact ⟨_, rasrRead s, readRasr_selected hacc hp hsel, rfl, s.drawn_answer_readFrame _,
      hsel.shownRegion_eq ▸ rasrRead_shows s⟩
  case unknown =>
    exact ⟨_, rasrRead s, shownRegion s, readRasr_unknown hacc hp hn, rfl, s.drawn_answer_readFrame _,
      shownRegion_lt hn hp, rasrRead_shows s⟩

theorem Cfg.withRasr_eq (c : Cfg) (n : Nat) (d : Word) :
    c.withRasr n d =
      { c with
        region := c.region.set n
          { c.regionAt n with
            attr := some
              { xn := d.getLsbD 28
                ap := BitVec.ofNat 3 (d.toNat / 2 ^ 24)
                tex := BitVec.ofNat 3 (d.toNat / 2 ^ 19)
                s := d.getLsbD 18
                c := d.getLsbD 17
                b := d.getLsbD 16
                srd := BitVec.ofNat 8 (d.toNat / 2 ^ 8)
                size := BitVec.ofNat 5 (d.toNat / 2) }
            enable := d.getLsbD 0 } } := by
  simp only [Cfg.withRasr, Cfg.setRegion, attrOfRasr, enableOfRasr, extractLsb'_eq_ofNat_div, Nat.pow_one]

/-- Settles O22, by the branches of the write behind RegPre. -/
theorem mpuRasrWrite : Obligations.MpuRasrWrite := by
  intro p hmem s addr size priv data
  rw [exec_rasrWrites hmem]
  refine ⟨regPrePresent_rule s addr size priv _, fun hacc hp => ?_⟩
  rw [writeRasr, hacc.regPrePresent_eq hp]
  refine ⟨fun hpol hd => if_pos (reservedRefused_eq_true hpol hd), fun hd => ?_⟩
  have hres : reservedRefused s data rasrReserved = false := reservedRefused_eq_false hd
  rw [hres, if_neg Bool.false_ne_true]
  refine ⟨fun hn => by rw [hn]; rfl, fun n hn hlt => ?_⟩
  have hsel : Selects s n := ⟨hn, hlt⟩
  rw [hn, hsel.strayRnr_eq]
  exact commit_writes_of_eq (Cfg.withRasr_eq ..)

/-! ### Store-multiple (R143) -/

/-- A privileged write that completes replies `Ok`. -/
theorem Effect.reply_of_write {i : Instr} (h : Effect s t i) (hi : i.regAccess? = some (true, true)) :
    t.reply = .ok := by
  cases h with
  | write _ c _ ht => obtain ⟨-, rfl⟩ | ⟨-, -, rfl⟩ := commit_next ht <;> rfl
  | unprivileged hu => simp [Instr.isUnprivilegedRegAccess, hi] at hu
  | read hr => simp [hi] at hr
  | _ => simp [Instr.regAccess?] at hi

theorem writeOf_regAccess? (r : Reg) (addr : Word) (size : Size) (priv : Bool) (data : Word) :
    (writeOf r addr size priv data).regAccess? = some (priv, true) := by
  cases r <;> rfl

theorem resumeAfter_fault (h : t.reply.isFault = true) (rest : List Packet) :
    resumeAfter rest (.next t) = .next t := by
  cases rest with
  | nil => exact resumeAfter_nil _
  | cons q qs => rw [resumeAfter, State.resume_cons, if_pos h]

/-- The step of a store-multiple at a register's address writes its first word there. -/
theorem step_storeMultiple {r : Reg} {w : Word} {ws : List Word} {bs : List Burst}
    (hp : s.pending = storeMultiple r.addr priv w ws :: bs) :
    step s = resumeAfter (storeWords (r.addr + 4#32) priv ws)
      (exec (writeOf r r.addr .word priv w) { s with pending := bs }) :=
  step_of_pending hp (decode_packetOfWrite r.holds_addr .word priv w)

/-- Settles O26: a completed word write leaves the rest of the words in line, and the RegPriv fault drops them. -/
theorem storeMultiple_inOrder : Obligations.StoreMultiple := by
  refine ⟨fun s t r w w' ws bs hp he => ?privileged, fun s r w ws bs hp => ?unprivileged⟩
  case privileged =>
    have heff := exec_next he
    obtain ⟨-, hpend, -⟩ := heff.keepsScope
    have hok : ¬ t.reply.isFault = true := by
      rw [heff.reply_of_write (writeOf_regAccess? ..)]
      exact Bool.false_ne_true
    rw [step_storeMultiple hp, he, resumeAfter, storeWords, State.resume_cons, if_neg hok, hpend]
    rfl
  case unprivileged =>
    obtain ⟨go, hgo⟩ := exec_writeOf_regPrePresent r { s with pending := bs } r.addr .word false w
    rw [step_storeMultiple hp, hgo, regPrePresent, regPre_unprivileged (aligned_reg r)]
    exact resumeAfter_fault rfl _

end Sys2Proof.Machine

/-! ## The access check: its verdicts on one byte, the regions behind them, and accesses of several bytes -/

namespace Sys2Proof.Machine

variable {s t : State} {p : Params} {c : Cfg} {a : Word} {k : Kind} {priv negprio : Bool}

/-! ### The order of the check (R173) -/

theorem check_of_inSCS (hk : k ≠ .vector) (h : p.inSCS a = true) :
    check p c a k priv negprio = if k = .fetch then .memManage a .fetch else .permit .stronglyOrdered := by
  rw [check, if_neg hk, if_pos h]

theorem check_of_disabled (hk : k ≠ .vector) (ha : p.inSCS a = false)
    (h : p.nregions = .absent ∨ c.ctrl.enable = false) : check p c a k priv negprio = defaultVerdict p a k := by
  rw [check, if_neg hk, if_neg (by simp [ha]), if_pos h]

theorem check_of_negprio (hk : k ≠ .vector) (ha : p.inSCS a = false) (h : c.ctrl.hfnmena = false) :
    check p c a k priv true = defaultVerdict p a k := by
  simp [check, hk, ha, h]

/-- R164: with the MPU in effect the regions judge, if all of them are well-formed. -/
theorem InEffect.check_eq (hk : k ≠ .vector) (h : InEffect p c a negprio) :
    check p c a k priv negprio =
      if c.WellFormed p.basePolicy then regionsVerdict p c a k priv else .unpredictable .illFormedRegion := by
  obtain ⟨ha, hn, he, hprio⟩ := h
  have hoff : ¬ (p.nregions = .absent ∨ c.ctrl.enable = false) := by simp [hn, he]
  have hlow : ¬ (c.ctrl.hfnmena = false ∧ negprio = true) := by
    rintro ⟨hh, rfl⟩
    simp [hh] at hprio
  have hany : c.region.any (fun r => !r.wellFormed p.basePolicy) = true ↔ ¬ c.WellFormed p.basePolicy := by
    simp [Cfg.WellFormed]
  simp only [check, if_neg hk, ha, Bool.false_eq_true, if_false, if_neg hoff, if_neg hlow, hany, ite_not]

theorem defaultVerdict_of_ne_fetch (h : k ≠ .fetch) : defaultVerdict p a k = .permit (p.defaultMap a).attr :=
  if_neg fun hf => h hf.1

theorem defaultVerdict_fetch :
    defaultVerdict p a .fetch =
      if (p.defaultMap a).xn = true then .memManage a .fetch else .permit (p.defaultMap a).attr := by
  simp only [defaultVerdict, true_and]

@[simp] theorem State.params_defaultMap (s : State) : s.params.defaultMap = Config.defaultMap := rfl

/-- Settles O39: HFNMENA and the priority enter the check through one condition, which HFNMENA = 1 and any other
priority each make false. -/
theorem hfnmena : Obligations.Hfnmena := by
  refine fun p c a k priv => ⟨fun _ hh hk ha => check_of_negprio hk ha hh, fun hh => ?_, fun h => ?_⟩
  · simp [check, hh]
  · simp [check, regionsVerdict]

/-! ### One byte on the machine (R174 to R177) -/

/-- The outcome of a check with verdict `v`, as `Concludes` has it, but with the log left open. -/
def Answers (s : State) (v : Verdict) (res : Result) : Prop :=
  match v with
  | .permit m => ∃ u, res = .next u ∧ u.reply = .permit m ∧ CheckFrame s u
  | .memManage a k => ∃ u, res = .next u ∧ u.reply = .memManage a k ∧ CheckFrame s u
  | .unpredictable r => res = .refused (.unpredictable r)

theorem conclude_answers {v : Verdict} (hf : CheckFrame s t) : Answers s v (conclude t v) := by
  cases v with
  | permit m => exact ⟨t.answer (.permit m), rfl, rfl, hf⟩
  | memManage a k => exact ⟨t.raise (.memManage a k), rfl, rfl, hf⟩
  | unpredictable r => rfl

theorem judgeIn_byte (win : List Cfg) (a : Word) (k : Kind) (priv negprio : Bool) (s : State) :
    judgeIn win a 0#32 k priv negprio s = check s.params (choose win s.cfg s.draws) a k priv negprio :=
  judge_one ..

/-- A read, a write and a fetch of the byte at `a` have the verdict `V` gives their kind. -/
def ByteChecksAnswer (s : State) (a : Word) (priv negprio : Bool) (V : Kind → Verdict) : Prop :=
  Answers s (V .read) (exec (.checkRead a 0#32 priv negprio) s) ∧
    Answers s (V .write) (exec (.checkWrite a 0#32 priv negprio) s) ∧
    Answers s (V .fetch) (exec (.checkFetch a 0#32 priv negprio) s)

/-- A check of one byte answers what `check` says under the configurations chosen from the windows. -/
theorem byteChecks_answer {V : Kind → Verdict}
    (hdata : ∀ k, k ≠ .vector → check s.params (choose s.winData s.cfg s.draws) a k priv negprio = V k)
    (hfetch : ∀ k, k ≠ .vector → check s.params (choose s.winFetch s.cfg s.draws) a k priv negprio = V k) :
    ByteChecksAnswer s a priv negprio V := by
  rw [ByteChecksAnswer, ← hdata .read (by decide), ← hdata .write (by decide), ← hfetch .fetch (by decide)]
  simp only [← judgeIn_byte]
  exact ⟨conclude_answers (by simp [CheckFrame]), conclude_answers (by simp [CheckFrame]),
    conclude_answers (by simp [CheckFrame])⟩

/-- With synchronised windows the current configuration judges (R66). -/
theorem State.Synchronised.byteChecks_answer (h : s.Synchronised) {V : Kind → Verdict}
    (hcheck : ∀ k, k ≠ .vector → check s.params s.cfg a k priv negprio = V k) :
    ByteChecksAnswer s a priv negprio V := by
  obtain ⟨hdata, hfetch⟩ := h
  apply Machine.byteChecks_answer
  · rwa [hdata]
  · rwa [hfetch]

/-- Settles O36: in the System Control Space the check is the same under every configuration. -/
theorem systemControlSpace : Obligations.SystemControlSpace := fun _ a _ _ h =>
  byteChecks_answer (V := fun k => if k = .fetch then .memManage a .fetch else .permit .stronglyOrdered)
    (fun _ hk => check_of_inSCS hk h) (fun _ hk => check_of_inSCS hk h)

/-- Settles O38: absent or disabled in both windows, the MPU is so in the configurations chosen from them. -/
theorem mpuDisabled : Obligations.MpuDisabled := by
  intro s a priv negprio hdata hfetch hoff ha
  have hcheck {win : List Cfg} (hmem : s.cfg ∈ win)
      (hwin : s.impl.nregions = .absent ∨ ∀ c ∈ win, c.ctrl.enable = false) (k : Kind) (hk : k ≠ .vector) :
      check s.params (choose win s.cfg s.draws) a k priv negprio = defaultVerdict s.params a k :=
    check_of_disabled hk ha (hwin.imp id fun hall => hall _ (choose_mem hmem))
  obtain ⟨hread, hwrite, hfetched⟩ :=
    byteChecks_answer (hcheck hdata (hoff.imp id And.left)) (hcheck hfetch (hoff.imp id And.right))
  rw [defaultVerdict_of_ne_fetch (by decide)] at hread hwrite
  refine ⟨hread, hwrite, ?_⟩
  rw [defaultVerdict_fetch, State.params_defaultMap] at hfetched
  by_cases hxn : (Config.defaultMap a).xn = true
  · rw [if_pos hxn] at hfetched ⊢
    exact hfetched
  · rw [if_neg hxn] at hfetched ⊢
    exact hfetched

/-- Settles O37: the verdict on a vector read looks at no configuration. -/
theorem checkVector : Obligations.CheckVector := fun _ _ _ _ => rfl

/-- Settles O40: the check stops at the ill-formed region before it looks for a deciding one. -/
theorem illFormedRegionRefuses : Obligations.IllFormedRegionRefuses := fun _ _ _ _ hsync heff hill =>
  hsync.byteChecks_answer (V := fun _ => .unpredictable .illFormedRegion)
    fun _ hk => (heff.check_eq hk).trans (if_neg hill)

theorem checkData_logs {more : Word} (h : checkData a more k priv negprio s = .next t) :
    CheckFrame s t ∧ ∃ v, t.accLog = logAfter s a more k priv negprio v := by
  obtain ⟨hframe, hlog, -⟩ := conclude_checkFrame h
  exact ⟨hframe, _, hlog⟩

/-- Settles O54: only entering the log, drawing and concluding touch the state. -/
theorem checksChangeOnlyTheLog : Obligations.ChecksChangeOnlyTheLog := by
  refine fun s t a more priv negprio => ⟨⟨checkData_logs, checkData_logs⟩, fun h => ?_, fun h => ?_⟩
  · obtain ⟨hframe, hlog, -⟩ := conclude_checkFrame h
    exact ⟨hframe, hlog⟩
  · cases (checkVector s a priv negprio).symm.trans h
    simp [CheckFrame]

/-! ### The deciding region (R167) -/

theorem decidingRegion_eq_none {rs : List Region} : decidingRegion a rs = none ↔ ∀ r ∈ rs, r.hits a = false := by
  induction rs with
  | nil => simp [decidingRegion]
  | cons q qs ih => simp [decidingRegion, ih, and_comm]

theorem decidingRegion_eq_some {rs : List Region} {r : Region} :
    decidingRegion a rs = some r ↔
      ∃ n, rs[n]? = some r ∧ r.hits a = true ∧ decidingRegion a (rs.drop (n + 1)) = none := by
  induction rs with
  | nil => simp [decidingRegion]
  | cons q qs ih =>
    have hhead : (decidingRegion a qs = none ∧ (if q.hits a = true then some q else none) = some r) ↔
        q = r ∧ r.hits a = true ∧ decidingRegion a qs = none := by
      rw [Option.ite_none_right_eq_some, Option.some_inj]
      constructor
      · rintro ⟨hnone, hhit, rfl⟩
        exact ⟨rfl, hhit, hnone⟩
      · rintro ⟨rfl, hhit, hnone⟩
        exact ⟨hnone, hhit, rfl⟩
    rw [← Nat.or_exists_add_one, decidingRegion, Option.or_eq_some_iff, ih, hhead, or_comm]
    simp

/-- R167: nothing after region `n` is hit exactly if no region of a higher number is. -/
theorem decides_iff {n : Nat} {r : Region} :
    Decides c a n r ↔
      c.region[n]? = some r ∧ r.hits a = true ∧ decidingRegion a (c.region.drop (n + 1)) = none := by
  simp only [Decides, decidingRegion_eq_none, List.mem_iff_getElem?, List.getElem?_drop, forall_exists_index]
  refine and_congr_right' (and_congr_right' ⟨fun h q i hq => h _ q (by omega) hq, fun h m q hm hq => ?_⟩)
  obtain ⟨i, rfl⟩ := Nat.exists_eq_add_of_le hm
  exact h q i hq

/-- Settles O41: the bank is searched from its highest number down, and the first region hit is the one that decides. -/
theorem highestRegionDecides : Obligations.HighestRegionDecides := fun _ _ =>
  ⟨fun _ => by simp only [decides_iff, decidingRegion_eq_some], decidingRegion_eq_none⟩

/-! ### The verdict of the deciding region (R91, R170 to R172) -/

theorem regionsVerdict_of_deciding {r : Region} {t : Attr} (hr : decidingRegion a c.region = some r)
    (ht : r.attr = some t) : regionsVerdict p c a k priv = attrVerdict p t a k priv := by
  simp [regionsVerdict, hr, ht]

theorem regionsVerdict_of_none (h : decidingRegion a c.region = none) :
    regionsVerdict p c a k priv =
      if c.ctrl.privdefena = true ∧ priv = true then defaultVerdict p a k else .memManage a k := by
  simp only [regionsVerdict, h]

theorem apPerm_eq_some {ap : BitVec 3} (h : ap ≠ 0b100#3) (priv : Bool) : ∃ perm, apPerm ap priv = some perm := by
  rw [← Option.isSome_iff_exists]
  revert ap priv
  decide

/-- The permissions of Table 93 are the lists of AP values `allowedByAP` reads it as. -/
theorem allows_iff_allowedByAP {ap : BitVec 3} {perm : Perm} (hk : k ≠ .vector) (h : apPerm ap priv = some perm) :
    perm.allows k = true ↔ allowedByAP ap priv k := by
  revert ap priv perm
  cases k with
  | vector => exact absurd rfl hk
  | read => simp only [allowedByAP]; decide
  | write => simp only [allowedByAP]; decide
  | fetch => simp only [allowedByAP]; decide

theorem attrVerdict_permit {t : Attr} {m : MemAttr} (hk : k ≠ .vector) (hap : t.ap ≠ 0b100#3)
    (hm : attrOf p.impdefAttr t.tex t.c t.b t.s = some m) (hallow : allowedByAP t.ap priv k)
    (hxn : k = .fetch → t.xn = false) : attrVerdict p t a k priv = .permit m := by
  obtain ⟨perm, hperm⟩ := apPerm_eq_some hap priv
  have hyes : ¬ perm.allows k = false := by simp [(allows_iff_allowedByAP hk hperm).mpr hallow]
  have hexec : ¬ (k = .fetch ∧ t.xn = true) := fun ⟨hf, hx⟩ => by simp [hxn hf] at hx
  simp only [attrVerdict, hperm, hm, if_neg hyes, if_neg hexec]

theorem attrVerdict_fault {t : Attr} {m : MemAttr} (hk : k ≠ .vector) (hap : t.ap ≠ 0b100#3)
    (hm : attrOf p.impdefAttr t.tex t.c t.b t.s = some m)
    (h : ¬ allowedByAP t.ap priv k ∨ k = .fetch ∧ t.xn = true) : attrVerdict p t a k priv = .memManage a k := by
  obtain ⟨perm, hperm⟩ := apPerm_eq_some hap priv
  simp only [attrVerdict, hperm, hm]
  by_cases hno : perm.allows k = false
  · rw [if_pos hno]
  · have hallow := (allows_iff_allowedByAP hk hperm).mp (Bool.not_eq_false _ ▸ hno)
    have hexec := h.resolve_left (not_not_intro hallow)
    rw [if_neg hno, if_pos hexec, hexec.1]

theorem Region.enable_of_hits {r : Region} (h : r.hits a = true) : r.enable = true := by
  unfold Region.hits at h
  split at h
  · obtain ⟨⟨he, -⟩, -⟩ := by simpa only [Bool.and_eq_true] using h
    exact he
  · cases h

/-- The AP encoding without a meaning makes an enabled region ill-formed (R36, R91). -/
theorem Region.ap_ne_of_wellFormed {bp : BasePolicy} {r : Region} {t : Attr} (hwf : r.wellFormed bp = true)
    (he : r.enable = true) (ht : r.attr = some t) : t.ap ≠ 0b100#3 := by
  obtain hoff | ⟨t', b, ht', -, -, -, hap, -⟩ := (wellFormedRegions bp r).mp hwf
  · simp [he] at hoff
  · rw [ht] at ht'
    cases ht'
    exact hap

/-- Settles O35: the deciding region's attributes judge, and Table 93 and XN say how. -/
theorem regionDecides : Obligations.RegionDecides := by
  intro s a priv negprio n r t m hsync heff hwf hdec ht hm
  have hr : decidingRegion a s.cfg.region = some r := ((highestRegionDecides s.cfg a).1 r).mpr ⟨n, hdec⟩
  obtain ⟨hn, hhit, -⟩ := hdec
  have hap : t.ap ≠ 0b100#3 :=
    Region.ap_ne_of_wellFormed (hwf r (List.mem_of_getElem? hn)) (Region.enable_of_hits hhit) ht
  obtain ⟨hread, hwrite, hfetch⟩ := hsync.byteChecks_answer (V := fun k => attrVerdict s.params t a k priv)
    fun k hk => ((heff.check_eq hk).trans (if_pos hwf)).trans (regionsVerdict_of_deciding hr ht)
  dsimp only at hread hwrite hfetch
  refine ⟨⟨fun hallow => ?_, fun hdeny => ?_⟩, ⟨fun hallow => ?_, fun hdeny => ?_⟩, fun hallow hxn => ?_,
    fun hdeny => ?_⟩
  · rwa [attrVerdict_permit (by decide) hap hm hallow nofun] at hread
  · rwa [attrVerdict_fault (by decide) hap hm (.inl hdeny)] at hread
  · rwa [attrVerdict_permit (by decide) hap hm hallow nofun] at hwrite
  · rwa [attrVerdict_fault (by decide) hap hm (.inl hdeny)] at hwrite
  · rwa [attrVerdict_permit (by decide) hap hm hallow fun _ => hxn] at hfetch
  · rwa [attrVerdict_fault (by decide) hap hm (hdeny.imp id fun hxn => ⟨rfl, hxn⟩)] at hfetch

/-! ### No deciding region (R168, R169, R179, R181) -/

/-- Settles O46: with no region hit there is no deciding one. -/
theorem backgroundRegion : Obligations.BackgroundRegion := by
  intro p c a k priv negprio hk heff hwf hmiss
  have hcheck := (heff.check_eq (priv := priv) hk).trans (if_pos hwf)
  rw [regionsVerdict_of_none (decidingRegion_eq_none.mpr hmiss)] at hcheck
  refine ⟨fun hp hpriv => hcheck.trans (if_pos ⟨hp, hpriv⟩), fun h => hcheck.trans (if_neg ?_)⟩
  rintro ⟨hp, hpriv⟩
  simp [hp, hpriv] at h

theorem Region.wellFormed_of_disabled {r : Region} (h : r.enable = false) (bp : BasePolicy) : r.wellFormed bp = true :=
  (wellFormedRegions bp r).mpr (.inl h)

theorem Region.hits_of_disabled {r : Region} (h : r.enable = false) (a : Word) : r.hits a = false :=
  Bool.not_eq_true _ ▸ fun hhit => by simp [enable_of_hits hhit] at h

/-- Settles O47: disabled regions are well-formed and are not hit. -/
theorem noRegionEnabled : Obligations.NoRegionEnabled := by
  intro p c a k priv negprio hk heff hoff
  have hmiss : ∀ r ∈ c.region, r.hits a = false := fun r hr => Region.hits_of_disabled (hoff r hr) a
  rw [heff.check_eq hk, if_pos fun r hr => Region.wellFormed_of_disabled (hoff r hr) _,
    regionsVerdict_of_none (decidingRegion_eq_none.mpr hmiss)]

/-- Two regions no check tells apart: they are equal or both disabled. -/
def Region.Alike (r r' : Region) : Prop := r = r' ∨ r.enable = false ∧ r'.enable = false

theorem Region.Alike.wellFormed_eq {r r' : Region} (h : r.Alike r') (bp : BasePolicy) :
    r.wellFormed bp = r'.wellFormed bp := by
  obtain rfl | ⟨hr, hr'⟩ := h
  · rfl
  · rw [Region.wellFormed_of_disabled hr, Region.wellFormed_of_disabled hr']

/-- Two region banks no check tells apart. -/
inductive BanksAlike : List Region → List Region → Prop where
  | nil : BanksAlike [] []
  | cons {r r' : Region} {rs rs' : List Region} (hr : r.Alike r') (hrs : BanksAlike rs rs') :
      BanksAlike (r :: rs) (r' :: rs')

theorem banksAlike_of_getElem? {rs rs' : List Region} (hlen : rs.length = rs'.length)
    (h : ∀ (n : Nat) (r r' : Region), rs[n]? = some r → rs'[n]? = some r' → r.Alike r') : BanksAlike rs rs' := by
  induction rs generalizing rs' with
  | nil =>
    obtain rfl := List.eq_nil_of_length_eq_zero hlen.symm
    exact .nil
  | cons r rs ih =>
    cases rs' with
    | nil => cases hlen
    | cons r' rs' => exact .cons (h 0 r r' rfl rfl) (ih (Nat.succ.inj hlen) fun n => h (n + 1))

theorem any_illFormed_congr {rs rs' : List Region} (h : BanksAlike rs rs') (bp : BasePolicy) :
    rs.any (fun r => !r.wellFormed bp) = rs'.any (fun r => !r.wellFormed bp) := by
  induction h with
  | nil => rfl
  | cons hr _ ih => rw [List.any_cons, List.any_cons, ih, hr.wellFormed_eq]

theorem decidingRegion_congr {rs rs' : List Region} (h : BanksAlike rs rs') (a : Word) :
    decidingRegion a rs = decidingRegion a rs' := by
  induction h with
  | nil => rfl
  | cons hr _ ih =>
    rw [decidingRegion, decidingRegion, ih]
    obtain rfl | ⟨hr, hr'⟩ := hr
    · rfl
    · rw [Region.hits_of_disabled hr, Region.hits_of_disabled hr']
      rfl

/-- Settles O48: neither the search for an ill-formed region nor that for the deciding one stops at a disabled one. -/
theorem disabledRegionsDoNotMatter : Obligations.DisabledRegionsDoNotMatter := by
  intro p c c' a k priv negprio hctrl hlen halike
  have hbank : BanksAlike c.region c'.region := banksAlike_of_getElem? hlen halike
  simp only [check, regionsVerdict, hctrl, any_illFormed_congr hbank, decidingRegion_congr hbank]

/-! ### The range of a region and its subregions (R87, R92, R165, R166) -/

section range

variable {b : BitVec 27} {size : BitVec 5}

theorem sizeLog_le (size : BitVec 5) : sizeLog size ≤ 32 := size.isLt

/-- R85: the stored bits of a base are its address bits [31:5]. -/
theorem storedBase_toNat (b : BitVec 27) : (b ++ 0#5).toNat = 32 * b.toNat := by
  rw [BitVec.toNat_append, Nat.shiftLeft_eq]
  simp [Nat.mul_comm]

theorem regionBytes_pos (size : BitVec 5) : 0 < regionBytes size := Nat.two_pow_pos _

/-- R87: the base address is the stored address rounded down to a multiple of the region size. -/
theorem baseAddr_toNat (b : BitVec 27) (size : BitVec 5) :
    (baseAddr b size).toNat = 32 * b.toNat / regionBytes size * regionBytes size := by
  have hb := b.isLt
  unfold baseAddr
  split
  next hN =>
    rw [regionBytes, hN, Nat.div_eq_of_lt (by omega), Nat.zero_mul]
    rfl
  next =>
    rw [BitVec.toNat_shiftLeft, BitVec.toNat_ushiftRight, storedBase_toNat, Nat.shiftLeft_eq, Nat.shiftRight_eq_div_pow]
    refine Nat.mod_eq_of_lt (Nat.lt_of_le_of_lt (Nat.div_mul_le_self ..) ?_)
    omega

/-- R165: `a` and the base agree in the bits from N on. -/
theorem inRange_iff_div : inRange b size a = true ↔ a.toNat / regionBytes size = 32 * b.toNat / regionBytes size := by
  have hb := b.isLt
  have ha := a.isLt
  rw [inRange, Bool.or_eq_true, decide_eq_true_eq, beq_iff_eq, ← BitVec.toNat_inj, BitVec.toNat_ushiftRight,
    BitVec.toNat_ushiftRight, storedBase_toNat, Nat.shiftRight_eq_div_pow, Nat.shiftRight_eq_div_pow]
  refine or_iff_right_of_imp fun hN => ?_
  rw [hN, Nat.div_eq_of_lt ha, Nat.div_eq_of_lt (by omega)]

theorem covers_iff_div : covers b size a ↔ a.toNat / regionBytes size = 32 * b.toNat / regionBytes size := by
  rw [covers, baseAddr_toNat, Nat.div_eq_iff (regionBytes_pos size)]
  have := regionBytes_pos size
  omega

theorem inRange_iff_covers : inRange b size a = true ↔ covers b size a := inRange_iff_div.trans covers_iff_div.symm

/-- R165: the range does not pass the last address. -/
theorem baseAddr_add_regionBytes_le (b : BitVec 27) (size : BitVec 5) :
    (baseAddr b size).toNat + regionBytes size ≤ 2 ^ 32 := by
  have hb := b.isLt
  have hpow : 2 ^ 32 = 2 ^ (32 - sizeLog size) * regionBytes size := by
    rw [regionBytes, ← Nat.pow_add, Nat.sub_add_cancel (sizeLog_le size)]
  have hq : 32 * b.toNat / regionBytes size < 2 ^ (32 - sizeLog size) := by
    rw [Nat.div_lt_iff_lt_mul (regionBytes_pos size), ← hpow]
    omega
  rw [baseAddr_toNat, ← Nat.succ_mul, hpow]
  exact Nat.mul_le_mul_right _ hq

theorem regionBytes_dvd_of_aligned (hs : 4 ≤ size.toNat) (h : baseAligned b size = true) :
    regionBytes size ∣ 32 * b.toNat := by
  have hlow : b.toNat % 2 ^ (size.toNat - 4) = 0 := by
    refine Nat.eq_of_testBit_eq fun i => ?_
    rw [Nat.testBit_mod_two_pow, Nat.zero_testBit]
    by_cases hi : i < size.toNat - 4
    · have := baseAligned_iff.mp h i (by omega)
      simp [BitVec.testBit_toNat, this]
    · simp [hi]
  have hsplit : regionBytes size = 32 * 2 ^ (size.toNat - 4) := by
    rw [regionBytes, sizeLog, show size.toNat + 1 = 5 + (size.toNat - 4) by omega, Nat.pow_add]
  rw [hsplit]
  exact Nat.mul_dvd_mul_left 32 (Nat.dvd_of_mod_eq_zero hlow)

/-- Settles O42, all of it from the base being the stored address rounded down. -/
theorem regionRange : Obligations.RegionRange := by
  refine fun b size a hs => ⟨inRange_iff_covers, ?_, baseAddr_add_regionBytes_le b size, fun h => ?_⟩
  · rw [baseAddr_toNat, Nat.mul_mod_left]
  · rw [baseAddr_toNat, Nat.div_mul_cancel (regionBytes_dvd_of_aligned hs h)]

/-- R92: the subregions are the eight equal parts of the range. -/
theorem subregion_eq_div (hs : 4 ≤ size.toNat) (h : covers b size a) :
    subregion size a = (a.toNat - (baseAddr b size).toNat) / (regionBytes size / 8) := by
  have hbytes : regionBytes size = 2 ^ (sizeLog size - 3) * 8 := by
    rw [regionBytes, show 8 = 2 ^ 3 from rfl, ← Nat.pow_add, Nat.sub_add_cancel (by rw [sizeLog]; omega)]
  have hoffset : a.toNat - (baseAddr b size).toNat = a.toNat % regionBytes size := by
    rw [baseAddr_toNat, ← covers_iff_div.mp h, Nat.mod_eq_sub_div_mul]
  rw [hoffset, hbytes, Nat.mul_div_cancel _ (by decide), Nat.mod_mul_right_div_self, subregion]

end range

theorem subregionEnabled_iff {t : Attr} :
    subregionEnabled t a = true ↔ (7 ≤ t.size.toNat → t.srd.getLsbD (subregion t.size a) = false) := by
  rw [subregionEnabled, Bool.or_eq_true, decide_eq_true_eq, Bool.not_eq_true', ← Nat.not_le, Decidable.imp_iff_not_or]

/-- Settles O43: a hit is an address in range and in no disabled subregion. -/
theorem subregions : Obligations.Subregions := by
  refine fun b t a hs => ⟨?_, Region.hits_of_disabled rfl a⟩
  simp only [Region.hits, Bool.true_and, Bool.and_eq_true, inRange_iff_covers, subregionEnabled_iff]
  exact and_congr_right fun h => by rw [subregion_eq_div hs h]

/-! ### Accesses of several bytes (R180) -/

/-- The verdicts on the bytes of an access. -/
def byteVerdicts (p : Params) (c : Cfg) (a : Word) (more : Nat) (k : Kind) (priv negprio : Bool) : List Verdict :=
  (List.range (more + 1)).map fun i => check p c (a + BitVec.ofNat 32 i) k priv negprio

theorem mem_byteVerdicts {more : Nat} {v : Verdict} :
    v ∈ byteVerdicts p c a more k priv negprio ↔
      ∃ i ≤ more, check p c (a + BitVec.ofNat 32 i) k priv negprio = v := by
  simp only [byteVerdicts, List.mem_map, List.mem_range, Nat.lt_add_one_iff]

theorem forall_byteVerdicts {more : Nat} {P : Verdict → Prop} :
    (∀ v ∈ byteVerdicts p c a more k priv negprio, P v) ↔
      ∀ i ≤ more, P (check p c (a + BitVec.ofNat 32 i) k priv negprio) := by
  simp only [byteVerdicts, List.forall_mem_map, List.mem_range, Nat.lt_add_one_iff]

theorem judge_eq_join (p : Params) (c : Cfg) (a : Word) (more : Nat) (k : Kind) (priv negprio : Bool) :
    judge p c a more k priv negprio = joinVerdicts (byteVerdicts p c a more k priv negprio) := rfl

/-- The first byte is at the address of the access. -/
theorem byteVerdicts_eq_cons (p : Params) (c : Cfg) (a : Word) (more : Nat) (k : Kind) (priv negprio : Bool) :
    ∃ vs, byteVerdicts p c a more k priv negprio = check p c a k priv negprio :: vs :=
  ⟨_, by rw [byteVerdicts, List.range_succ_eq_map, List.map_cons, BitVec.add_zero]⟩

theorem Verdict.reason?_eq_some {v : Verdict} {r : Reason} : v.reason? = some r ↔ v = .unpredictable r := by
  cases v <;> simp [Verdict.reason?]

theorem joinVerdicts_unpredictable {vs : List Verdict} (h : ∃ v ∈ vs, v.reason?.isSome = true) :
    ∃ r, .unpredictable r ∈ vs ∧ joinVerdicts vs = .unpredictable r := by
  obtain ⟨r, hr⟩ := Option.isSome_iff_exists.mp (List.findSome?_isSome_iff.mpr h)
  obtain ⟨v, hv, hvr⟩ := List.exists_of_findSome?_eq_some hr
  cases vs with
  | nil => cases hv
  | cons w ws => exact ⟨r, Verdict.reason?_eq_some.mp hvr ▸ hv, by simp only [joinVerdicts, hr]⟩

theorem joinVerdicts_fault {vs : List Verdict} (hr : ∀ v ∈ vs, v.reason? = none) {b : Word} {l : Kind}
    (h : Verdict.memManage b l ∈ vs) :
    ∃ b' l', Verdict.memManage b' l' ∈ vs ∧ b'.toNat ≤ b.toNat ∧ joinVerdicts vs = .memManage b' l' := by
  cases hf : lowestFault vs with
  | none => exact absurd h (lowestFault_none.mp hf b l)
  | some f =>
    obtain ⟨hmem, hlow⟩ := lowestFault_some hf
    refine ⟨_, _, hmem, hlow b l h, ?_⟩
    cases vs with
    | nil => cases h
    | cons w ws => simp only [joinVerdicts, List.findSome?_eq_none_iff.mpr hr, hf]

theorem joinVerdicts_permits {v : Verdict} {vs : List Verdict} (h : ∀ w ∈ v :: vs, ∃ m, w = .permit m) :
    joinVerdicts (v :: vs) = if ∀ w ∈ vs, w = v then v else .unpredictable .straddle := by
  have hr : ∀ w ∈ v :: vs, w.reason? = none := fun w hw => by
    obtain ⟨m, rfl⟩ := h w hw
    rfl
  have hf : lowestFault (v :: vs) = none := lowestFault_none.mpr fun b l hb => by simpa using h _ hb
  simp only [joinVerdicts, List.findSome?_eq_none_iff.mpr hr, hf, List.all_eq_true, beq_iff_eq]

theorem defaultVerdict_memManage {b : Word} {l : Kind} (h : defaultVerdict p a k = .memManage b l) :
    b = a ∧ l = k := by
  unfold defaultVerdict at h
  split at h
  next hfetch => cases h; exact ⟨rfl, hfetch.1.symm⟩
  next => cases h

theorem attrVerdict_memManage {t : Attr} {b : Word} {l : Kind} (h : attrVerdict p t a k priv = .memManage b l) :
    b = a ∧ l = k := by
  unfold attrVerdict at h
  split at h
  next =>
    split at h
    next => cases h; exact ⟨rfl, rfl⟩
    next =>
      split at h
      next hfetch => cases h; exact ⟨rfl, hfetch.1.symm⟩
      next => cases h
  next => cases h

theorem regionsVerdict_memManage {b : Word} {l : Kind} (h : regionsVerdict p c a k priv = .memManage b l) :
    b = a ∧ l = k := by
  unfold regionsVerdict at h
  split at h
  next =>
    split at h
    next => exact attrVerdict_memManage h
    next => cases h
  next =>
    split at h
    next => exact defaultVerdict_memManage h
    next => cases h; exact ⟨rfl, rfl⟩

/-- A fault of the check is for the address and the kind of the access (R160). -/
theorem check_memManage {b : Word} {l : Kind} (h : check p c a k priv negprio = .memManage b l) : b = a ∧ l = k := by
  unfold check at h
  split at h
  next => cases h
  next =>
    split at h
    next =>
      split at h
      next hfetch => cases h; exact ⟨rfl, hfetch.symm⟩
      next => cases h
    next =>
      split at h
      next => exact defaultVerdict_memManage h
      next =>
        split at h
        next => exact defaultVerdict_memManage h
        next =>
          split at h
          next => cases h
          next => exact regionsVerdict_memManage h

/-- Settles O50, by the outcomes of `joinVerdicts`. -/
theorem severalBytes : Obligations.SeveralBytes := by
  intro p c a more k priv negprio
  rw [judge_eq_join]
  have byte {i : Nat} (hi : i ≤ more) :
      check p c (a + BitVec.ofNat 32 i) k priv negprio ∈ byteVerdicts p c a more k priv negprio :=
    mem_byteVerdicts.mpr ⟨i, hi, rfl⟩
  obtain ⟨vs, hvs⟩ := byteVerdicts_eq_cons p c a more k priv negprio
  refine ⟨?unpredictable, ?fault, ?permit, ?straddle⟩
  case unpredictable =>
    rintro ⟨i, hi, h⟩
    obtain ⟨r, hmem, hjoin⟩ := joinVerdicts_unpredictable ⟨_, byte hi, h⟩
    obtain ⟨j, hj, hcheck⟩ := mem_byteVerdicts.mp hmem
    exact ⟨j, r, hj, hcheck, hjoin⟩
  case fault =>
    intro hr i b l hi hb hlow
    obtain ⟨b', l', hmem, hle, hjoin⟩ := joinVerdicts_fault (forall_byteVerdicts.mpr hr) (hb ▸ byte hi)
    obtain ⟨j, hj, hcheck⟩ := mem_byteVerdicts.mp hmem
    obtain rfl : b' = b := BitVec.eq_of_toNat_eq (Nat.le_antisymm hle (hlow j b' l' hj hcheck))
    obtain ⟨-, rfl⟩ := check_memManage hcheck
    obtain ⟨hb', rfl⟩ := check_memManage hb
    exact ⟨hb', rfl, hjoin⟩
  case permit =>
    intro m h
    have hall := (forall_byteVerdicts (P := fun v => v = .permit m)).mpr h
    rw [hvs] at hall ⊢
    obtain ⟨hfirst, hrest⟩ := List.forall_mem_cons.mp hall
    rw [joinVerdicts_permits fun w hw => ⟨m, hall w hw⟩, hfirst, if_pos hrest]
  case straddle =>
    rintro h ⟨i, hi, hne⟩
    have hall := (forall_byteVerdicts (P := fun v => ∃ m, v = .permit m)).mpr h
    have hmem := byte hi
    rw [hvs] at hall hmem ⊢
    rw [joinVerdicts_permits hall, if_neg fun hsame => ?_]
    exact hne ((List.mem_cons.mp hmem).elim id (hsame _))

end Sys2Proof.Machine

/-! ## Exceptions: where a MemManage fault comes from, and what privilege is worth -/

namespace Sys2Proof.Machine

variable {s t : State} {p : Params} {c : Cfg} {a b : Word} {k l : Kind} {priv negprio : Bool}

/-! ### Privileged software may do whatever unprivileged software may (R209) -/

/-- Where the regions do not judge, the privilege takes no part in the check (R161 to R163). -/
theorem check_priv_congr (h : k = .vector ∨ ¬ InEffect p c a negprio) (priv priv' : Bool) :
    check p c a k priv negprio = check p c a k priv' negprio := by
  by_cases hk : k = .vector
  · simp only [check, if_pos hk]
  by_cases hscs : p.inSCS a = true
  · rw [check_of_inSCS hk hscs, check_of_inSCS hk hscs]
  have ha : p.inSCS a = false := eq_false_of_ne_true hscs
  by_cases hoff : p.nregions = .absent ∨ c.ctrl.enable = false
  · rw [check_of_disabled hk ha hoff, check_of_disabled hk ha hoff]
  obtain ⟨rfl, hh⟩ : negprio = true ∧ c.ctrl.hfnmena = false := by
    simpa [InEffect, hk, ha, not_or.mp hoff, and_comm] using h
  rw [check_of_negprio hk ha hh, check_of_negprio hk ha hh]

/-- Table 93: no row gives privileged software less than unprivileged software (R91). -/
theorem apPerm_allows_privileged {ap : BitVec 3} {perm : Perm} (h : apPerm ap false = some perm)
    (hk : perm.allows k = true) : ∃ perm', apPerm ap true = some perm' ∧ perm'.allows k = true := by
  revert ap perm
  cases k <;> decide

theorem attrVerdict_permit_iff {t : Attr} {m : MemAttr} :
    attrVerdict p t a k priv = .permit m ↔
      (∃ perm, apPerm t.ap priv = some perm ∧ perm.allows k = true) ∧
        attrOf p.impdefAttr t.tex t.c t.b t.s = some m ∧ ¬ (k = .fetch ∧ t.xn = true) := by
  cases hperm : apPerm t.ap priv with
  | none => simp [attrVerdict, hperm]
  | some perm =>
    cases hm : attrOf p.impdefAttr t.tex t.c t.b t.s with
    | none => simp [attrVerdict, hperm, hm]
    | some m' =>
      by_cases hallow : perm.allows k = true
      · by_cases hxn : k = .fetch ∧ t.xn = true <;> simp [attrVerdict, hperm, hm, hallow, hxn]
      · simp [attrVerdict, hperm, hm, hallow]

theorem attrVerdict_permit_privileged {t : Attr} {m : MemAttr} (h : attrVerdict p t a k false = .permit m) :
    attrVerdict p t a k true = .permit m := by
  obtain ⟨⟨perm, hperm, hallow⟩, hm, hxn⟩ := attrVerdict_permit_iff.mp h
  exact attrVerdict_permit_iff.mpr ⟨apPerm_allows_privileged hperm hallow, hm, hxn⟩

/-- The background region permits nothing unprivileged, and the deciding region is the same at both levels. -/
theorem regionsVerdict_permit_privileged {m : MemAttr} (h : regionsVerdict p c a k false = .permit m) :
    regionsVerdict p c a k true = .permit m := by
  cases hd : decidingRegion a c.region with
  | none => simp [regionsVerdict_of_none hd] at h
  | some r =>
    cases ht : r.attr with
    | none => simp [regionsVerdict, hd, ht] at h
    | some t =>
      rw [regionsVerdict_of_deciding hd ht] at h ⊢
      exact attrVerdict_permit_privileged h

/-- Settles O49: the privilege enters the check where the regions judge, and there it only adds permissions. -/
theorem privilegedAtLeastUnprivileged : Obligations.PrivilegedAtLeastUnprivileged := by
  intro p c a k negprio m h
  by_cases hjudged : k = .vector ∨ ¬ InEffect p c a negprio
  · rwa [check_priv_congr hjudged true false]
  · obtain ⟨hk, heff⟩ := not_or.mp hjudged
    rw [(Classical.not_not.mp heff).check_eq hk] at h ⊢
    by_cases hwf : c.WellFormed p.basePolicy
    · rw [if_pos hwf] at h ⊢
      exact regionsVerdict_permit_privileged h
    · simp [hwf] at h

/-! ### The MemManage fault comes from the checks (R200) -/

theorem joinVerdicts_memManage {vs : List Verdict} (h : joinVerdicts vs = .memManage b l) :
    Verdict.memManage b l ∈ vs := by
  cases vs with
  | nil => cases h
  | cons v vs =>
    rw [joinVerdicts] at h
    split at h
    · cases h
    · split at h
      next hf =>
        cases h
        exact (lowestFault_some hf).1
      next =>
        split at h
        · exact h ▸ List.mem_cons_self
        · cases h

/-- A fault of an access is for its kind and for one of its bytes (R180). -/
theorem judge_memManage {more : Nat} (h : judge p c a more k priv negprio = .memManage b l) :
    l = k ∧ ∃ j ≤ more, b = a + BitVec.ofNat 32 j := by
  obtain ⟨j, hj, hcheck⟩ := mem_byteVerdicts.mp (joinVerdicts_memManage h)
  obtain ⟨hb, hl⟩ := check_memManage hcheck
  exact ⟨hl, j, hj, hb⟩

theorem conclude_memManage {v : Verdict} (h : conclude s v = .next t) (hr : t.reply = .memManage b l) :
    v = .memManage b l := by
  obtain ⟨m, -, rfl⟩ | ⟨b', l', rfl, rfl⟩ := conclude_next h
  · cases hr
  · cases hr
    rfl

/-- Settles O51: of the effects an operation can have, only the three checks' conclude with a verdict that may be a
fault. -/
theorem memManageOnlyFromChecks : Obligations.MemManageOnlyFromChecks := by
  intro i s t b k h hr
  cases exec_next h with
  | checkRead a more priv negprio ht =>
    obtain ⟨rfl, hbyte⟩ := judge_memManage (conclude_memManage ht hr)
    exact ⟨a, more, priv, negprio, .inl ⟨rfl, rfl⟩, hbyte⟩
  | checkWrite a more priv negprio ht =>
    obtain ⟨rfl, hbyte⟩ := judge_memManage (conclude_memManage ht hr)
    exact ⟨a, more, priv, negprio, .inr (.inl ⟨rfl, rfl⟩), hbyte⟩
  | checkFetch a more priv negprio ht =>
    obtain ⟨rfl, hbyte⟩ := judge_memManage (conclude_memManage ht hr)
    exact ⟨a, more, priv, negprio, .inr (.inr ⟨rfl, rfl⟩), hbyte⟩
  | write hi => cases ((exec_next h).reply_of_write hi).symm.trans hr
  | read _ w ht => obtain rfl | rfl := ht <;> cases hr
  | unprivileged _ ht | checkVector _ _ _ ht | dsb ht | isb ht | excEntry ht | excReturn ht | reset ht =>
    subst ht
    cases hr

/-! ### Only privileged writes and reset change the configuration (R209, R146) -/

theorem CheckFrame.cfg_eq (h : CheckFrame s t) : t.cfg = s.cfg := by
  obtain ⟨-, hcfg, -⟩ := h
  exact hcfg

/-- Settles O52: every other effect an operation can have leaves the configuration. -/
theorem configurationChangedOnlyByPrivilegedWrites : Obligations.ConfigurationChangedOnlyByPrivilegedWrites := by
  intro i s t h hne
  cases exec_next h with
  | write hi => exact .inr hi
  | reset => exact .inl rfl
  | checkRead a more priv negprio ht => exact absurd (CheckFrame.cfg_eq (checkData_checkFrame ht).1) hne
  | checkWrite a more priv negprio ht => exact absurd (CheckFrame.cfg_eq (checkData_checkFrame ht).1) hne
  | checkFetch a more priv negprio ht => exact absurd (CheckFrame.cfg_eq (checkFetched_checkFrame ht).1) hne
  | read _ w ht => obtain rfl | rfl := ht <;> exact absurd rfl hne
  | unprivileged _ ht | checkVector _ _ _ ht | dsb ht | isb ht | excEntry ht | excReturn ht =>
    subst ht
    exact absurd rfl hne

end Sys2Proof.Machine

/-! ## The reset operation (R230) -/

namespace Sys2Proof.Machine

/-- RESET has one outcome in every state (R230). -/
theorem exec_reset (s : State) : exec .reset s = .next s.afterReset := rfl

/-- After reset a region's base and attributes are Unknown and it is disabled (R31, R32). -/
theorem Cfg.reset_region_unknown_disabled {r : Region} {n : Nat} (h : r ∈ (Cfg.reset n).region) :
    r.base = none ∧ r.attr = none ∧ r.enable = false := by
  rw [Cfg.mem_reset_region h]
  exact ⟨rfl, rfl, rfl⟩

/-- Settles O2: the next state is `s.afterReset`, whose configuration is the reset one for the regions `s` has. -/
theorem resetOperation : Obligations.ResetOperation := by
  intro s
  have hlen : s.afterReset.cfg.region.length = s.impl.nregions.count := (Cfg.reset_legal _).1
  exact ⟨s.afterReset, exec_reset s, rfl, rfl, hlen, fun _ hr => Cfg.reset_region_unknown_disabled hr,
    rfl, rfl, rfl, rfl, rfl, rfl, rfl, rfl⟩

end Sys2Proof.Machine
